-- ==== Sys2Proof/Word.lean ====
section
/-! DEFINITION. The widths the spec works in: bytes of transactions and frame bodies, 16-bit quantities (table
sequence, GENERATION, digest, check words, sets of stations) and station numbers 0 to 15. -/

namespace Sys2Proof

/-- A byte of a transaction, a record or a frame body (00_scope.md, CONVENTIONS). -/
abbrev Byte := BitVec 8

/-- A 16-bit quantity; the table sequence and GENERATION wrap (00_scope.md, Arithmetic). -/
abbrev Word := BitVec 16

/-- A station number, 0 to 15 (Table 0-1). -/
abbrev Station := Fin 16

/-- A set of station numbers as the 16-bit set of Table 3-6 and Table 9-3: bit n is station n. -/
abbrev StationSet := BitVec 16

end Sys2Proof
end

