-- ==== Sys2Proof/Syntax.lean ====
section
/-! DEFINITION. The commands of the block: one constructor per row of spec/opcode_table.json. A row of the table gives no
operands' bits; the operands here are what the spec's rules for the row read from outside the part. -/

namespace Sys2Proof

/-- The three answer slots of a frame as this station samples them, its own answers included (R53, R91): true is
dominant. -/
structure Answers where
  reject : Bool
  agree : Bool
  disagree : Bool
  deriving DecidableEq, Repr

/-- The fields of a received frame that its kind does not fix (Table 3-2): STATION, CONT and SEQ. -/
structure Head where
  station : Station
  cont : Bool
  seq : Word
  deriving DecidableEq, Repr

/-- Whose transmitter sent the frame that ends its answer slots (R62: "taken from its own transmitter, not from
STATION"). An own frame's content is the transmit buffer's, so it has no operand; a frame heard carries its head and
its body. -/
inductive Origin (β : Type) where
  | own
  | heard (head : Head) (body : β)
  deriving DecidableEq, Repr

/-- Body of JOIN: digest in bytes 0 and 1, nonce in bytes 2 and 3 (R59). -/
structure JoinBody where
  digest : Word
  nonce : Word
  deriving DecidableEq, Repr

/-- Body of CLAIM: resource index, mode byte, tag (R58). -/
structure ClaimBody where
  resource : Byte
  modeByte : Byte
  tag : Byte
  deriving DecidableEq, Repr

/-- A frame as sampled slot by slot, field by field in the order of Table 3-2, before any check of it. -/
structure RawFrame where
  cls : BitVec 2
  station : BitVec 4
  kind : BitVec 4
  cont : Bool
  seq : Word
  len : BitVec 6
  body : List Byte
  check : Word
  deriving DecidableEq, Repr

/-- The request record written by SUBMIT (Table 8-1). -/
structure RequestRecord where
  kind : Byte
  mode : Byte
  resource : Byte
  tag : Byte
  waitLimit : Word
  unused : Word
  deriving DecidableEq, Repr

/-- The two moments of a port transaction at which something happens besides its end (R159, R160): CSn falls, or the bytes of
the transaction have been clocked in, and after them some more whole bytes, which clock the output out, before CSn rises. A
transaction given in its second moment alone is one whose CSn fell with no event between the two. -/
inductive Spi where
  | csnFalls
  | clocked (after : Nat)
  deriving DecidableEq, Repr

/-- A transaction clocked for as long as the longest answer of Table 9-1, the 40 bytes of READ_ENTRY. -/
def Spi.whole : Spi := .clocked 40

/-- The commands: spec/opcode_table.json row by row. An operand with a default is what the command means when it is written without
it: a whole transaction, a loss in the first slot of the field, a glitch. No statement is written so. -/
inductive Instr where
  /-- HARDWARE_RESET (R122): RESETn released with the straps ST3..ST0. -/
  | hardwareReset (straps : BitVec 4)
  /-- READ_STATUS (R168). -/
  | readStatus (spi : Spi := .whole)
  /-- READ_ENTRY (R169) of an index byte. -/
  | readEntry (index : Byte) (spi : Spi := .whole)
  /-- READ_ROSTER (R170). -/
  | readRoster (spi : Spi := .whole)
  /-- TAKE (R157): capture and shift out. -/
  | take (spi : Spi := .whole)
  /-- TAKE_RECORD_REMOVAL (R157): CSn rises after the last record byte. -/
  | takeRecordRemoval
  /-- SUBMIT (R138) of a request record. -/
  | submit (record : RequestRecord) (spi : Spi := .whole)
  /-- CANCEL (R146) of a tag. -/
  | cancel (tag : Byte) (spi : Spi := .whole)
  /-- CLEAR_FLAGS (R171) with a flag mask. -/
  | clearFlags (mask : Word) (spi : Spi := .whole)
  /-- WRITE_MASKS (R172): masks and notice byte. -/
  | writeMasks (masks : Word) (notice : Byte) (spi : Spi := .whole)
  /-- WRITE_CONFIG (R163): offset, count, data bytes. -/
  | writeConfig (offset : Byte) (count : Byte) (data : List Byte) (spi : Spi := .whole)
  /-- START (R164). -/
  | start (spi : Spi := .whole)
  /-- Port LEAVE (R132). -/
  | portLeave (spi : Spi := .whole)
  /-- REJOIN (R135). -/
  | rejoin (spi : Spi := .whole)
  /-- RESTART (R136). -/
  | restart (spi : Spi := .whole)
  /-- A transaction code not in Table 9-1 (R159). -/
  | unknownTransactionCode (code : Byte) (spi : Spi)
  /-- A transaction whose CSn rises before it is taken; the whole bytes clocked in, the code first, and none after them
  (R160). -/
  | transactionCutShort (bytes : List Byte) (spi : Spi := .whole)
  /-- OFFER (R72): a slot boundary at which the idle count is START_GAP or more. -/
  | offer
  /-- ARBITRATION_LOST (R66, R73): dominant read where recessive was driven, in this slot of the arbitration field, counted
  from 0. -/
  | arbitrationLost (slot : Nat := 0)
  /-- ARBITRATION_PASSED (R76). -/
  | arbitrationPassed
  /-- BIT_ERROR (R77) in a data slot, counted from 0 at the first bit of CLASS. -/
  | bitError (slot : Nat)
  /-- A JOIN ends its answer slots (R33, R96). -/
  | join (origin : Origin JoinBody) (answers : Answers)
  /-- A LEAVE ends its answer slots (R36). -/
  | leave (origin : Origin Unit) (answers : Answers)
  /-- A HEARTBEAT ends its answer slots (R37). -/
  | heartbeat (origin : Origin Unit) (answers : Answers)
  /-- A REAP ends its answer slots (R38); its body is the target byte. -/
  | reap (origin : Origin Byte) (answers : Answers)
  /-- A CLAIM ends its answer slots (R14). -/
  | claim (origin : Origin ClaimBody) (answers : Answers)
  /-- A RELEASE ends its answer slots (R17); its body is the resource index. -/
  | release (origin : Origin Byte) (answers : Answers)
  /-- A WITHDRAW ends its answer slots (R18); its body is the resource index. -/
  | withdraw (origin : Origin Byte) (answers : Answers)
  /-- A DOWNGRADE ends its answer slots (R19); its body is the resource index. -/
  | downgrade (origin : Origin Byte) (answers : Answers)
  /-- A SYNC_REQ ends its answer slots (R106). -/
  | syncReq (origin : Origin Unit) (answers : Answers)
  /-- A SNAP_HEAD ends its answer slots (R114); its body is the ten bytes of Table 3-5. -/
  | snapHead (origin : Origin (List Byte)) (answers : Answers)
  /-- A SNAP_ENTRY ends its answer slots (R115); its body is the bytes of its entry records (Table 3-6). -/
  | snapEntry (origin : Origin (List Byte)) (answers : Answers)
  /-- A SNAP_TAIL ends its answer slots (R116); its body is the replica check. -/
  | snapTail (origin : Origin Word) (answers : Answers)
  /-- FORMAT_ERROR (R64): a frame followed to the end of CHECK, as this station sampled it. -/
  | formatError (frame : RawFrame)
  /-- TRUNCATION (R63): the data slots as sampled before the one that lacked its mark. -/
  | truncation (bits : List Bool)
  /-- RECEIVE_OVERRUN (R65): the frame begun while the receive buffer was HELD, as sampled. -/
  | receiveOverrun (frame : RawFrame)
  /-- ROUND_END (R79): the idle count reaches ROUND_GAP. -/
  | roundEnd
  /-- HOLD_TIMEOUT (R82): the idle count reaches HOLD_TIMEOUT. -/
  | holdTimeout
  /-- LEASE_EXPIRED (R42): the running countdown of a station reaches zero. -/
  | leaseExpired (station : Station)
  /-- HEARTBEAT_DUE (R47): the heartbeat timer reaches zero. -/
  | heartbeatDue
  /-- RETRY_TIMER_EXPIRY (R105). -/
  | retryTimerExpiry
  /-- JOIN_WAIT_ELAPSED (R123). -/
  | joinWaitElapsed
  /-- WAIT_TIMER_EXPIRY (R144) of the context with a tag. -/
  | waitTimerExpiry (tag : Byte)
  /-- ABANDON (R84): the frame whose attempt count has reached 16. -/
  | abandon
  /-- ENTER_MUTED (R100). -/
  | enterMuted
  /-- RECOVERY (R102). -/
  | recovery
  /-- GLITCH (R51): a falling edge outside a frame, and for how many whole slots the line stayed dominant from it. Under two it is
  the glitch; from two on it is a start mark. -/
  | glitch (slots : Nat := 0)
  deriving DecidableEq, Repr

end Sys2Proof
end

