-- ==== Sys2Proof/WellFormed.lean ====
section
/-! DEFINITION. Which commands are well formed: the checks a command's operands must pass to be the event its row names,
whatever the state. Checks that read the local configuration (a resource index against TABLE_SIZE, R64) are the machine's. -/

namespace Sys2Proof

/-- How many bytes a transaction shifts in, its code included, before it is taken (Table 9-1, R160); none for a code that
is not in the table. WRITE_CONFIG's length is set by its count byte, when that byte has come. -/
def transactionLength (code : Byte) (rest : List Byte) : Option Nat :=
  if code = 0x01#8 ∨ code = 0x03#8 ∨ code = 0x04#8 ∨ code = 0x21#8 ∨ code = 0x22#8 ∨ code = 0x23#8 ∨ code = 0x24#8 then some 1
  else if code = 0x02#8 ∨ code = 0x11#8 then some 2
  else if code = 0x10#8 then some 9
  else if code = 0x12#8 then some 3
  else if code = 0x13#8 then some 4
  else if code = 0x20#8 then some (3 + ((rest[1]?).map BitVec.toNat).getD 0)
  else none

/-- The transaction codes of Table 9-1. -/
def knownCode (code : Byte) : Bool := (transactionLength code []).isSome

/-- Bytes clocked in before CSn rose do not make a whole transaction (R160). WRITE_CONFIG without its count byte is not
whole either. -/
def cutShort : List Byte → Bool
  | [] => true
  | code :: rest =>
    match transactionLength code rest with
    | none => false
    | some n => rest.length + 1 < n || (code == 0x20#8 && rest.length < 2)

/-- The checks on a command's operands. -/
def Instr.wellFormed : Instr → Bool
  | .hardwareReset _ => true
  | .readStatus _ => true
  | .readEntry _ _ => true
  | .readRoster _ => true
  | .take _ => true
  | .takeRecordRemoval => true
  | .submit _ _ => true
  | .cancel _ _ => true
  | .clearFlags _ _ => true
  | .writeMasks _ _ _ => true
  | .writeConfig _ count data _ => data.length == count.toNat
  | .start _ => true
  | .portLeave _ => true
  | .rejoin _ => true
  | .restart _ => true
  | .unknownTransactionCode code _ => !knownCode code
  | .transactionCutShort bytes spi => cutShort bytes && (spi == .csnFalls || spi == .clocked 0)
  | .offer => true
  | .arbitrationLost slot => slot < 6
  | .arbitrationPassed => true
  | .bitError slot => 6 ≤ slot
  | .join _ _ => true
  | .leave _ _ => true
  | .heartbeat _ _ => true
  | .reap _ _ => true
  | .claim _ _ => true
  | .release _ _ => true
  | .withdraw _ _ => true
  | .downgrade _ _ => true
  | .syncReq _ _ => true
  | .snapHead .own _ => true
  | .snapHead (.heard _ body) _ => body.length == 10
  | .snapEntry .own _ => true
  | .snapEntry (.heard _ body) _ => 6 ≤ body.length && body.length ≤ 40
  | .snapTail _ _ => true
  | .formatError frame => frame.body.length == frame.len.toNat
  | .truncation bits => bits.length < 553
  | .receiveOverrun frame => frame.body.length == frame.len.toNat
  | .roundEnd => true
  | .holdTimeout => true
  | .leaseExpired _ => true
  | .heartbeatDue => true
  | .retryTimerExpiry => true
  | .joinWaitElapsed => true
  | .waitTimerExpiry _ => true
  | .abandon => true
  | .enterMuted => true
  | .recovery => true
  | .glitch _ => true

end Sys2Proof
end

