-- ==== Sys2Proof/Decode.lean ====
section
/-! DEFINITION. The table's words, and the port's own reading of a transaction's first byte (Table 9-1). No row of
spec/opcode_table.json gives bits (98_reader.md: "n_rows_with_fixed": 0), so no word spells a command. -/

namespace Sys2Proof

/-- The command a word of `nbits` bits spells by the table's bits: none, since no row of the table gives bits. -/
def decodeTableWord (_nbits _w : Nat) : Option Instr := none

/-- A SUBMIT's request record (Table 8-1): kind, mode, resource, tag, WAIT_LIMIT, and two bytes without a meaning. -/
def requestRecordOf (kind mode resource tag w1 w0 u1 u0 : Byte) : RequestRecord :=
  { kind := kind, mode := mode, resource := resource, tag := tag, waitLimit := w1 ++ w0, unused := u1 ++ u0 }

/-- A transaction that is taken, by its code and the bytes on SDI after it (Table 9-1, R159): the command with its operands, and the
bytes clocked in beyond its input, which are not examined. None when the bytes do not reach the end of its input. -/
def takenTransaction (code : Nat) (rest : List Byte) : Option Instr :=
  match code, rest with
  | 0x01, r => some (.readStatus (.clocked r.length))
  | 0x02, index :: r => some (.readEntry index (.clocked r.length))
  | 0x03, r => some (.readRoster (.clocked r.length))
  | 0x04, r => some (.take (.clocked r.length))
  | 0x10, k :: m :: res :: tag :: w1 :: w0 :: u1 :: u0 :: r => some (.submit (requestRecordOf k m res tag w1 w0 u1 u0) (.clocked r.length))
  | 0x11, tag :: r => some (.cancel tag (.clocked r.length))
  | 0x12, m1 :: m0 :: r => some (.clearFlags (m1 ++ m0) (.clocked r.length))
  | 0x13, m1 :: m0 :: n :: r => some (.writeMasks (m1 ++ m0) n (.clocked r.length))
  | 0x20, offset :: count :: r =>
    if count.toNat ≤ r.length then some (.writeConfig offset count (r.take count.toNat) (.clocked (r.length - count.toNat))) else none
  | 0x21, r => some (.start (.clocked r.length))
  | 0x22, r => some (.portLeave (.clocked r.length))
  | 0x23, r => some (.rejoin (.clocked r.length))
  | 0x24, r => some (.restart (.clocked r.length))
  | _, _ => none

/-- The command of a whole transaction by the whole bytes on SDI from CSn falling to CSn rising, the code first (R159, R160). One
whose code is not in Table 9-1, and one that ends before it is taken, have their own rows. -/
def transactionOf (bytes : List Byte) : Instr :=
  match bytes with
  | [] => .transactionCutShort [] (.clocked 0)
  | code :: rest =>
    if knownCode code then (takenTransaction code.toNat rest).getD (.transactionCutShort bytes (.clocked 0))
    else .unknownTransactionCode code (.clocked rest.length)

end Sys2Proof
end

