-- ==== Sys2Proof/Config.lean ====
section
/-! DEFINITION. The part's constants and the one free value the spec leaves open. -/

namespace Sys2Proof.Config

/-- START_GAP, 6 slots (Table 3-1). -/
def startGap : Nat := 6

/-- ROUND_GAP, 12 slots (Table 3-1). -/
def roundGap : Nat := 12

/-- HOLD_TIMEOUT, 40 slots (Table 3-1). -/
def holdTimeout : Nat := 40

/-- The attempt count at which a frame is abandoned (R84). -/
def attemptLimit : Nat := 16

/-- The consecutive-reject count at which a station is muted (R100). -/
def rejectLimit : Nat := 16

/-- The clean-frame count at which a MUTED station recovers (R102). -/
def cleanLimit : Nat := 64

/-- Records of the waiter pool (R12). -/
def poolSize : Nat := 48

/-- Contexts of the request unit (R158). -/
def contextCount : Nat := 8

/-- FREE VALUE (log entry 5). The nonce of the n-th JOIN start mark: "drawn at each start mark from the
reference-driven counter" (R59, R124), whose value the spec does not state. -/
opaque nonce : Nat → Word

end Sys2Proof.Config
end

