-- ==== Sys2Proof/Machine/State.lean ====
section
/-! DEFINITION. The state of one station, unit by unit as Figure 0-1 names the blocks, plus the queue of commands that wait.
Plain data; reset values as the chapters give them. Values the spec leaves open at reset: log entries 1, 5, 6 and 11. -/

namespace Sys2Proof.Machine

/-! ### The replica (ch. 1, ch. 2) -/

/-- Mode of a claim or waiter record (Table 0-2). -/
inductive Mode where
  | excl
  | shared
  deriving DecidableEq, Repr

/-- STATE of a claim entry (Table 1-2). -/
inductive HoldState where
  | free
  | exclusive
  | shared
  deriving DecidableEq, Repr

/-- A waiter record (R9). -/
structure Waiter where
  station : Station
  mode : Mode
  tag : Byte
  deriving DecidableEq, Repr

/-- A claim entry (Table 1-2): attribute copy, then claim state. -/
structure Entry where
  permit : StationSet
  sharedOk : Bool
  state : HoldState
  holders : StationSet
  waiters : List Waiter
  generation : Word
  deriving DecidableEq, Repr

/-- The claim state of an entry, without its attributes: what an entry record carries (Table 3-6). -/
structure ClaimState where
  state : HoldState
  holders : StationSet
  waiters : List Waiter
  generation : Word
  deriving DecidableEq, Repr

/-- Roster membership (Table 2-1). -/
inductive Membership where
  | absent
  | present
  | lapsed
  deriving DecidableEq, Repr

/-- The replica (R1, R2). -/
structure Replica where
  table : Vector Entry 64
  poolInUse : Nat
  roster : Vector Membership 16
  sequence : Word
  valid : Bool
  deriving DecidableEq, Repr

/-- Empty form of a claim entry (Table 1-1). -/
def Entry.empty : Entry :=
  { permit := 0#16, sharedOk := false, state := .free, holders := 0#16, waiters := [], generation := 0#16 }

/-- Empty form of the replica (Table 1-1). -/
def Replica.empty : Replica :=
  { table := Vector.replicate 64 Entry.empty, poolInUse := 0, roster := Vector.replicate 16 .absent,
    sequence := 0#16, valid := false }

/-! ### Timers -/

/-- A timer of the heartbeat, retry, join-wait or wait kind: stopped, or running with the time that remains in
microseconds. -/
inductive Timer where
  | stopped
  | running (us : Nat)
  deriving DecidableEq, Repr

/-! ### Request unit (ch. 8) -/

/-- KIND of a request (Table 8-1). -/
inductive RequestKind where
  | claim
  | release
  | downgrade
  deriving DecidableEq, Repr

/-- Context states (Table 8-4). -/
inductive ContextState where
  | queuedLocal
  | contending
  | transmitting
  | waiting
  | withdrawing
  | done
  deriving DecidableEq, Repr

/-- The cause field (R140). -/
inductive Cause where
  | none
  | timedOut
  | cancelled
  deriving DecidableEq, Repr

/-- The withdraw phase (Table 8-3). -/
inductive WithdrawPhase where
  | none
  | queued
  | contending
  | transmitting
  deriving DecidableEq, Repr

/-- Result codes of completion records (Table 8-9). -/
inductive Result where
  | granted
  | released
  | downgraded
  | busy
  | notPermitted
  | already
  | notHeld
  | poolFull
  | timedOut
  | cancelled
  | evicted
  | abandoned
  | mediumFault
  deriving DecidableEq, Repr

/-- A context in use (Table 8-3). MODE is recorded for a CLAIM only (R137). -/
structure Context where
  tag : Byte
  kind : RequestKind
  mode : Option Mode
  resource : Byte
  waitLimit : Word
  state : ContextState
  cause : Cause
  withdrawPhase : WithdrawPhase
  waitTimer : Timer
  deriving DecidableEq, Repr

/-- A completion record (Table 8-8). -/
structure CompletionRecord where
  tag : Byte
  kind : RequestKind
  mode : Option Mode
  tooLate : Bool
  result : Result
  resource : Byte
  generation : Word
  sequence : Word
  deriving DecidableEq, Repr

/-- The request unit: contexts in use in acceptance order (a free context is one not listed) and the completion queue,
oldest first (R140, R156). -/
structure RequestUnit where
  contexts : List Context
  queue : List CompletionRecord
  deriving DecidableEq, Repr

/-- Request unit after hardware reset and RESTART (R154). -/
def RequestUnit.reset : RequestUnit := { contexts := [], queue := [] }

/-! ### Contention unit (ch. 4) -/

/-- Frame kinds (Table 3-3). -/
inductive FrameKind where
  | syncReq
  | snapHead
  | snapEntry
  | snapTail
  | join
  | leave
  | heartbeat
  | reap
  | release
  | withdraw
  | downgrade
  | claim
  deriving DecidableEq, Repr

/-- Kinds of send-list entries (R68). -/
inductive SendKind where
  | claim
  | release
  | downgrade
  | withdraw
  deriving DecidableEq, Repr

/-- A send-list entry (R68): kind, the context's tag, the resource, for a CLAIM mode and may-wait, the attempt count, and
whether it is a carried frame of a LEAVING station (R71). -/
structure SendEntry where
  kind : SendKind
  tag : Byte
  resource : Byte
  mode : Mode
  mayWait : Bool
  attempts : Nat
  carried : Bool
  deriving DecidableEq, Repr

/-- What an offered frame was taken from (Table 4-3). -/
inductive OfferSource where
  | train
  | syncReq
  | join
  | leave
  | reap (target : Station)
  | heartbeat
  | entry (tag : Byte)
  deriving DecidableEq, Repr

/-- Phases of the current offer (Table 4-1). -/
inductive OfferPhase where
  | arbitrating
  | sending
  | answering
  deriving DecidableEq, Repr

/-- The frame in the transmit buffer. CLASS follows from the kind, STATION is the local number, LEN the body's length and
CHECK is computed as the fields go out (R55, R56). -/
structure TxFrame where
  kind : FrameKind
  cont : Bool
  seq : Word
  body : List Byte
  deriving DecidableEq, Repr

/-- The current offer (Table 4-1). -/
structure Offer where
  source : OfferSource
  frame : TxFrame
  phase : OfferPhase
  deriving DecidableEq, Repr

/-- Station-frame attempt counts (R83); REAP's goes with the target it counts for. -/
structure AttemptCounts where
  train : Nat
  syncReq : Nat
  join : Nat
  leave : Nat
  heartbeat : Nat
  reap : Nat
  reapTarget : Option Station
  deriving DecidableEq, Repr

/-- All counts 0. -/
def AttemptCounts.zero : AttemptCounts :=
  { train := 0, syncReq := 0, join := 0, leave := 0, heartbeat := 0, reap := 0, reapTarget := none }

/-- Contention unit (Table 4-1). -/
structure ContentionUnit where
  sendList : List SendEntry
  joinPending : Bool
  leavePending : Bool
  syncReqPending : Bool
  heartbeatDue : Bool
  trainIntent : Bool
  attempts : AttemptCounts
  turnUsed : Bool
  hold : Option Station
  silent : Bool
  offer : Option Offer
  deriving DecidableEq, Repr

/-- Contention unit after hardware reset and RESTART (Table 4-1, R67). -/
def ContentionUnit.reset : ContentionUnit :=
  { sendList := [], joinPending := false, leavePending := false, syncReqPending := false, heartbeatDue := false,
    trainIntent := false, attempts := .zero, turnUsed := false, hold := none, silent := false, offer := none }

/-! ### Lease unit (ch. 2) -/

/-- Lease unit: the remaining time of each countdown in microseconds, by station number (the local number's stays 0, R40),
the reap set (R44) and the heartbeat timer (R47). Whether a countdown runs is read from R42's conditions. -/
structure LeaseUnit where
  remaining : Vector Nat 16
  reapSet : StationSet
  heartbeat : Timer
  deriving DecidableEq, Repr

/-- Lease unit after hardware reset and RESTART (R40, R44, R47). -/
def LeaseUnit.reset : LeaseUnit :=
  { remaining := Vector.replicate 16 0, reapSet := 0#16, heartbeat := .stopped }

/-! ### Sync unit (ch. 6) -/

/-- Train phase (Table 6-1). -/
inductive TrainPhase where
  | none
  | head
  | entries
  | tail
  deriving DecidableEq, Repr

/-- An OPEN shadow (Table 6-2). Next index is the number of claim states taken. -/
structure Shadow where
  source : Station
  trainSequence : Word
  roster : Vector Membership 16
  poolInUse : Nat
  headBody : List Byte
  claims : List ClaimState
  deriving DecidableEq, Repr

/-- Sync unit (Table 6-1); a CLOSED shadow is `none`. -/
structure SyncUnit where
  phase : TrainPhase
  cursor : Nat
  sendCheck : Word
  shadow : Option Shadow
  retry : Timer
  deriving DecidableEq, Repr

/-- Sync unit after hardware reset and RESTART (Table 6-1, R103). -/
def SyncUnit.reset : SyncUnit :=
  { phase := .none, cursor := 0, sendCheck := 0xFFFF#16, shadow := none, retry := .stopped }

/-! ### Line transceiver and frame engine (ch. 3) -/

/-- A whole frame in the receive buffer, as it is delivered: its fields, the three answers as sampled, and whether this station
was its sender (R62). -/
structure ReceivedFrame where
  fields : RawFrame
  answers : Answers
  sent : Bool
  deriving DecidableEq, Repr

/-- The receive buffer (R62): EMPTY; FILLING, with the data slots sampled so far, CLASS first; HELD, with the frame. -/
inductive RxBuffer where
  | empty
  | filling (slots : List Bool)
  | held (frame : ReceivedFrame)
  deriving DecidableEq, Repr

/-- An answer slot (R53). -/
inductive AnswerSlot where
  | reject
  | agree
  | disagree
  deriving DecidableEq, Repr

/-- Idle count, receive buffer, check accumulator, the answer slot this station drove in the last frame on the line
(R52, R53, R56, R62), and whether a frame is followed that began while the buffer was HELD (R65). `dominantLeft` is the claim line's
level when no frame is on it: for how many more whole slots a fault holds it dominant (R52, R54, log entry 24). -/
structure LineUnit where
  idleCount : Nat
  rx : RxBuffer
  checkAcc : Word
  answer : Option AnswerSlot
  overrun : Bool
  dominantLeft : Nat
  deriving DecidableEq, Repr

/-- Transceiver and frame engine after hardware reset and RESTART (R54, R62). -/
def LineUnit.reset : LineUnit :=
  { idleCount := 0, rx := .empty, checkAcc := 0xFFFF#16, answer := none, overrun := false, dominantLeft := 0 }

/-! ### Station controller (ch. 7) -/

/-- The eleven station states (Table 7-1). -/
inductive StationState where
  | offline
  | listening
  | joining
  | syncing
  | inStep
  | outOfStep
  | muted
  | leaving
  | departed
  | evicted
  | refused
  deriving DecidableEq, Repr

/-- Station controller (Table 7-2). `nonceDraws` is the model's own counter: it picks the free value of each JOIN's
nonce (log entry 5). -/
structure StationController where
  number : Station
  state : StationState
  joinWait : Timer
  heardState : Bool
  rejectCount : Nat
  cleanCount : Nat
  nonceDraws : Nat
  deriving DecidableEq, Repr

/-! ### Port unit (ch. 9) -/

/-- Event flags (Table 9-7). -/
inductive EventFlag where
  | founded
  | regained
  | lostStep
  | muted
  | trainLost
  | evicted
  | refused
  | clash
  | peerJoined
  | peerLapsed
  | mediumFault
  deriving DecidableEq, Repr

/-- Port unit: configuration block and lock (R163), digest (R165), event flags (R171), masks and completion-notice enable
(R172), the header byte sampled when CSn fell, in a transaction that is not taken yet (R159), the bytes SDO shifted out in the
last transaction (R159), and the record a TAKE has captured and shifted out, until CSn rises (R157). -/
structure PortUnit where
  config : Vector Byte 195
  locked : Bool
  digest : Word
  flags : Word
  masks : Word
  notice : Bool
  selected : Option Byte
  sdo : List Byte
  capture : Option CompletionRecord
  deriving DecidableEq, Repr

/-- Port unit after hardware reset (R174). -/
def PortUnit.reset : PortUnit :=
  { config := Vector.replicate 195 0#8, locked := false, digest := 0#16, flags := 0#16, masks := 0#16, notice := false,
    selected := none, sdo := [], capture := none }

/-- Station controller after hardware reset with a station number sampled (Table 7-2). -/
def StationController.reset (number : Station) : StationController :=
  { number := number, state := .offline, joinWait := .stopped, heardState := false, rejectCount := 0, cleanCount := 0,
    nonceDraws := 0 }

/-! ### The machine -/

/-- The whole state of the station and the queue of commands that wait, first in, first out. -/
structure State where
  port : PortUnit
  ctl : StationController
  line : LineUnit
  cont : ContentionUnit
  replica : Replica
  lease : LeaseUnit
  sync : SyncUnit
  req : RequestUnit
  pending : List Instr
  deriving DecidableEq, Repr

/-- No command faults: the spec names no stop of the part. One constructor stands for the type's sake: raised by
nobody; safe. -/
inductive Fault where
  /-- Raised by no command (the spec gives every row an effect or says that nothing changes); safe. -/
  | noneRaised
  deriving DecidableEq, Repr

/-- Refusals. -/
inductive Refusal where
  /-- A row of the table without a meaning yet, by its mnemonic: raised by exec's refused arms; safe. -/
  | notModelled (mnemonic : String)
  deriving DecidableEq, Repr

/-- The part right after hardware reset (R122). The station number is the straps' (R166); with the straps open each pin
reads 1 (Table 9-8), so the number here is 15: DESIGN CHOICE, log entry 1; HARDWARE_RESET samples any other. -/
def State.reset : State :=
  { port := .reset, ctl := .reset 15, line := .reset, cont := .reset, replica := .empty, lease := .reset, sync := .reset,
    req := .reset, pending := [] }

end Sys2Proof.Machine
end

