-- ==== Sys2Proof/Machine/Operands.lean ====
section
/-! DEFINITION. Operand forms: station sets, byte and bit layouts, the configuration block's fields (Table 9-3), the kinds
and codes of frames (Table 3-3), the fields of request records (Table 8-1) and the states' properties (Table 7-1). -/

namespace Sys2Proof

/-! ### Sets of stations -/

/-- Station x is in the set. -/
def StationSet.has (s : StationSet) (x : Station) : Bool := s.getLsbD x.val

/-- The set with x added. -/
def StationSet.addStation (s : StationSet) (x : Station) : StationSet := s ||| (1#16 <<< x.val)

/-- The set with x taken out. -/
def StationSet.dropStation (s : StationSet) (x : Station) : StationSet := s &&& ~~~(1#16 <<< x.val)

/-- The lowest station number in the set (R71). -/
def StationSet.lowest (s : StationSet) : Option Station := (List.finRange 16).find? (StationSet.has s)

/-! ### Bytes and bits, most significant first (00_scope.md, CONVENTIONS) -/

/-- The more significant byte of a 16-bit quantity. -/
def hiByte (w : Word) : Byte := (w >>> 8).setWidth 8

/-- The less significant byte of a 16-bit quantity. -/
def loByte (w : Word) : Byte := w.setWidth 8

/-- A 16-bit quantity sent most significant byte first. -/
def wordBytes (w : Word) : List Byte := [hiByte w, loByte w]

/-- The 16-bit quantity of two bytes. -/
def wordOf (hi lo : Byte) : Word := hi ++ lo

/-- The bits of a field, most significant first (R55). -/
def fieldBits {n : Nat} (v : BitVec n) : List Bool := (List.range n).map fun i => v.getMsbD i

/-- The bits of a run of bytes, each most significant bit first. -/
def bytesBits (bytes : List Byte) : List Bool := bytes.flatMap fun b => fieldBits b

/-- A station number from a four-bit field. -/
def stationOf (v : BitVec 4) : Station := ⟨v.toNat, v.isLt⟩

/-- The four-bit field of a station number. -/
def stationBits (x : Station) : BitVec 4 := BitVec.ofNat 4 x.val

/-- Read a bit as 1 or 0 in a byte. -/
def bitByte (b : Bool) : Byte := if b then 1#8 else 0#8

namespace Machine

/-! ### Frame kinds (Table 3-3) -/

/-- KIND code. -/
def FrameKind.code : FrameKind → BitVec 4
  | .syncReq => 0
  | .snapHead => 1
  | .snapEntry => 2
  | .snapTail => 3
  | .join => 4
  | .leave => 5
  | .heartbeat => 6
  | .reap => 7
  | .release => 8
  | .withdraw => 9
  | .downgrade => 10
  | .claim => 11

/-- The kind of a code; codes 12 to 15 have none (R57). -/
def FrameKind.ofCode (c : BitVec 4) : Option FrameKind :=
  match c.toNat with
  | 0 => some .syncReq
  | 1 => some .snapHead
  | 2 => some .snapEntry
  | 3 => some .snapTail
  | 4 => some .join
  | 5 => some .leave
  | 6 => some .heartbeat
  | 7 => some .reap
  | 8 => some .release
  | 9 => some .withdraw
  | 10 => some .downgrade
  | 11 => some .claim
  | _ => none

/-- CLASS of a kind. -/
def FrameKind.cls : FrameKind → BitVec 2
  | .syncReq | .snapHead | .snapEntry | .snapTail => 0
  | .join | .leave | .heartbeat | .reap => 1
  | .release | .withdraw | .downgrade => 2
  | .claim => 3

/-- A state frame advances the table sequence; the others are service frames. -/
def FrameKind.isState : FrameKind → Bool
  | .syncReq | .snapHead | .snapEntry | .snapTail => false
  | _ => true

/-- The fixed LEN of a kind; SNAP_ENTRY's varies (R57). -/
def FrameKind.fixedLen : FrameKind → Option Nat
  | .syncReq => some 0
  | .snapHead => some 10
  | .snapEntry => none
  | .snapTail => some 2
  | .join => some 4
  | .leave => some 0
  | .heartbeat => some 0
  | .reap => some 1
  | .release => some 1
  | .withdraw => some 1
  | .downgrade => some 1
  | .claim => some 3

/-- The frame kind a send-list entry is sent as. -/
def SendKind.frameKind : SendKind → FrameKind
  | .claim => .claim
  | .release => .release
  | .downgrade => .downgrade
  | .withdraw => .withdraw

/-- The send-list kind of a request (Table 8-5). -/
def RequestKind.sendKind : RequestKind → SendKind
  | .claim => .claim
  | .release => .release
  | .downgrade => .downgrade

/-- The mode a CLAIM's mode byte gives: its most significant bit (R58). -/
def claimMode (b : Byte) : Mode := if b.getMsbD 0 then .shared else .excl

/-- The may-wait indication a CLAIM's mode byte gives: the next bit (R58). -/
def claimMayWait (b : Byte) : Bool := b.getMsbD 1

/-- The mode byte a sender builds, its six lower bits zero (R58). -/
def modeByte (m : Mode) (mayWait : Bool) : Byte :=
  (if m = .shared then 0x80#8 else 0#8) ||| (if mayWait then 0x40#8 else 0#8)

/-! ### Request records (Table 8-1) -/

/-- KIND of a request record. -/
def requestKind (b : Byte) : Option RequestKind :=
  match b.toNat with
  | 1 => some .claim
  | 2 => some .release
  | 3 => some .downgrade
  | _ => none

/-- MODE of a request record. -/
def requestMode (b : Byte) : Option Mode :=
  match b.toNat with
  | 0 => some .excl
  | 1 => some .shared
  | _ => none

/-- The wait timer at acceptance: WAIT_LIMIT milliseconds when it lies between 1 and 65534 (R144). -/
def waitTimerOf (waitLimit : Word) : Timer :=
  if waitLimit = 0#16 ∨ waitLimit = 0xFFFF#16 then .stopped else .running (waitLimit.toNat * 1000)

/-! ### The configuration block (Table 9-3) -/

/-- Byte at an offset of the block. -/
def PortUnit.configByte (p : PortUnit) (offset : Nat) : Byte := p.config[offset]?.getD 0#8

/-- TABLE_SIZE of a code (Table 9-3). -/
def tableSizeOfCode (c : Byte) : Nat :=
  match c.toNat with
  | 0 => 16
  | 1 => 32
  | _ => 64

/-- TABLE_SIZE: fixed at START from the block (R164); 16 before START (R169). Log entry 6. -/
def PortUnit.tableSize (p : PortUnit) : Nat := if p.locked then tableSizeOfCode (p.configByte 2) else 16

/-- The slot length in microseconds (Table 3-1), fixed at START (R164). Log entry 6. -/
def PortUnit.slotUs (p : PortUnit) : Nat := if p.locked then 16 >>> (p.configByte 0).toNat else 16

/-- LEASE in microseconds: 25 ms doubled for each step of the code (Table 9-3), fixed at START (R164). Log entry 6. -/
def PortUnit.leaseUs (p : PortUnit) : Nat := if p.locked then 25000 * 2 ^ (p.configByte 1).toNat else 25000

/-- PERMIT of entry i in the block. -/
def PortUnit.permit (p : PortUnit) (i : Nat) : StationSet := wordOf (p.configByte (3 + 3 * i)) (p.configByte (4 + 3 * i))

/-- SHARED_OK of entry i in the block. -/
def PortUnit.sharedOk (p : PortUnit) (i : Nat) : Bool := p.configByte (5 + 3 * i) == 1#8

/-- The checks START makes of the block (R164). -/
def PortUnit.configGood (p : PortUnit) : Bool :=
  decide ((p.configByte 0).toNat ≤ 3) && decide ((p.configByte 1).toNat ≤ 7) && decide ((p.configByte 2).toNat ≤ 2) &&
    (List.range (tableSizeOfCode (p.configByte 2))).all fun i => decide ((p.configByte (5 + 3 * i)).toNat ≤ 1)

/-- The bytes the digest covers: offsets 0 to 2 + 3 × TABLE_SIZE (R165). -/
def PortUnit.digestBytes (p : PortUnit) : List Byte :=
  p.config.toList.take (3 + 3 * tableSizeOfCode (p.configByte 2))

/-- TABLE_SIZE of the station. -/
def State.tableSize (s : State) : Nat := s.port.tableSize

/-- The slot length of the station in microseconds. -/
def State.slotUs (s : State) : Nat := s.port.slotUs

/-- LEASE of the station in microseconds. -/
def State.leaseUs (s : State) : Nat := s.port.leaseUs

/-! ### Properties of the station states -/

/-- State code of Table 9-4. -/
def StationState.code : StationState → Byte
  | .offline => 0
  | .listening => 1
  | .joining => 2
  | .syncing => 3
  | .inStep => 4
  | .outOfStep => 5
  | .muted => 6
  | .leaving => 7
  | .departed => 8
  | .evicted => 9
  | .refused => 10

/-- IN_STEP and LEAVING answer and apply state frames (Table 5-1, Table 7-1). -/
def StationState.applies : StationState → Bool
  | .inStep | .leaving => true
  | _ => false

/-- The requesting states (R103). -/
def StationState.requesting : StationState → Bool
  | .outOfStep | .syncing => true
  | _ => false

/-- The states that answer REJECT on a format error (Table 5-1). -/
def StationState.rejects (st : StationState) : Bool := st.applies || st.requesting

/-- The states in which SUBMIT is accepted (Table 8-2, NOT_MEMBER). -/
def StationState.member : StationState → Bool
  | .inStep | .outOfStep | .syncing | .muted => true
  | _ => false

/-- The end states (R134). -/
def StationState.ended : StationState → Bool
  | .departed | .evicted | .refused => true
  | _ => false

/-- The states that apply the own-number rule (R129). -/
def StationState.ownNumberRule : StationState → Bool
  | .syncing | .outOfStep | .muted | .inStep | .leaving => true
  | _ => false

/-- The line transceiver is active in every state after START (R54). -/
def State.active (s : State) : Bool := s.ctl.state != .offline

end Machine

end Sys2Proof
end

