-- ==== Sys2Proof/Machine/Flags.lean ====
section
/-! DEFINITION. Event flags, SUMMARY, INTn, the header byte, port status codes and result codes (ch. 8, ch. 9). -/

namespace Sys2Proof.Machine

/-- Bit position of an event flag (Table 9-7). -/
def EventFlag.bit : EventFlag → Nat
  | .founded => 0
  | .regained => 1
  | .lostStep => 2
  | .muted => 3
  | .trainLost => 4
  | .evicted => 5
  | .refused => 6
  | .clash => 7
  | .peerJoined => 8
  | .peerLapsed => 9
  | .mediumFault => 10

/-- The word with only the flag's bit set. -/
def EventFlag.mask (f : EventFlag) : Word := 1#16 <<< f.bit

/-- The owner reports the event: the flag is set, or stays set (R171). -/
def PortUnit.raise (p : PortUnit) (f : EventFlag) : PortUnit := { p with flags := p.flags ||| f.mask }

/-- A flag as it stands. -/
def PortUnit.flag (p : PortUnit) (f : EventFlag) : Bool := p.flags.getLsbD f.bit

/-- Report an event flag. -/
def State.raise (s : State) (f : EventFlag) : State := { s with port := s.port.raise f }

/-- SUMMARY: at least one flag is set whose mask bit is 1 (R172). Mask bits 11..15 have no effect. -/
def State.summary (s : State) : Bool := (s.port.flags &&& s.port.masks &&& 0x07FF#16) != 0#16

/-- INTn is driven low (R173). -/
def State.intnLow (s : State) : Bool := s.summary || (s.port.notice && !s.req.queue.isEmpty)

/-- The header byte, sampled when CSn falls (R159). -/
def State.header (s : State) : Byte :=
  (if s.summary then 0x80#8 else 0#8) ||| (if s.req.queue.isEmpty then 0#8 else 0x40#8) |||
    (if s.replica.valid then 0x20#8 else 0#8) ||| s.ctl.state.code

/-- Port statuses (Table 8-2, Table 9-2). -/
inductive PortStatus where
  | accepted
  | notMember
  | badRequest
  | badResource
  | tagInUse
  | noContext
  | notPending
  | wrongState
  | badOffset
  | badConfig
  deriving DecidableEq, Repr

/-- Code of a port status. -/
def PortStatus.code : PortStatus → Byte
  | .accepted => 0x00
  | .notMember => 0x01
  | .badRequest => 0x02
  | .badResource => 0x03
  | .tagInUse => 0x04
  | .noContext => 0x05
  | .notPending => 0x06
  | .wrongState => 0x07
  | .badOffset => 0x08
  | .badConfig => 0x09

/-- Result code (Table 8-9). -/
def Result.code : Result → Byte
  | .granted => 1
  | .released => 2
  | .downgraded => 3
  | .busy => 4
  | .notPermitted => 5
  | .already => 6
  | .notHeld => 7
  | .poolFull => 8
  | .timedOut => 9
  | .cancelled => 10
  | .evicted => 11
  | .abandoned => 12
  | .mediumFault => 13

/-- State code of a context (R168). -/
def ContextState.code : ContextState → Byte
  | .queuedLocal => 1
  | .contending => 2
  | .transmitting => 3
  | .waiting => 4
  | .withdrawing => 5
  | .done => 6

/-- KIND code in byte 1 of a completion record (Table 8-8). -/
def RequestKind.recordBits : RequestKind → Byte
  | .claim => 0x40
  | .release => 0x80
  | .downgrade => 0xC0

/-- The eight bytes of a completion record (Table 8-8). -/
def CompletionRecord.bytes (r : CompletionRecord) : List Byte :=
  [r.tag,
    r.kind.recordBits ||| (if r.mode = some .shared then 0x20#8 else 0#8) ||| (if r.tooLate then 0x10#8 else 0#8),
    r.result.code, r.resource] ++ wordBytes r.generation ++ wordBytes r.sequence

end Sys2Proof.Machine
end

