-- ==== Sys2Proof/Machine/Check.lean ====
section
/-! DEFINITION. The check accumulator (R56), shared by frames, the replica check (R61) and the digest (R165). -/

namespace Sys2Proof.Machine

/-- The accumulator takes one bit: feedback is the bit against its own most significant bit; it shifts left by one and, if
the feedback is 1, takes the exclusive-or with 1021h (R56). -/
def checkBit (acc : Word) (b : Bool) : Word :=
  if xor b (acc.getMsbD 0) then (acc <<< 1) ^^^ 0x1021#16 else acc <<< 1

/-- The accumulator after a run of bits. -/
def checkBits (acc : Word) (bits : List Bool) : Word := bits.foldl checkBit acc

/-- The accumulator after a run of bytes, most significant bit first (R61, R165). -/
def checkBytes (acc : Word) (bytes : List Byte) : Word := checkBits acc (bytesBits bytes)

/-- The preset (R56). -/
def checkPreset : Word := 0xFFFF#16

/-- The digest of a configuration block (R165). -/
def PortUnit.computeDigest (p : PortUnit) : Word := checkBytes checkPreset p.digestBytes

end Sys2Proof.Machine
end

