-- ==== Sys2Proof/Machine/Frames.lean ====
section
/-! DEFINITION. Frame formats: entry records (Table 3-6), the SNAP_HEAD body (Table 3-5), the frame as bits (Table 3-2), and
the format checks of a receiver (R57 to R61, Table 3-8). -/

namespace Sys2Proof.Machine

/-! ### Entry records (Table 3-6, R60) -/

/-- STATE code. -/
def HoldState.code : HoldState → BitVec 2
  | .free => 0
  | .exclusive => 1
  | .shared => 2

/-- The state of a code; 11b is reserved (R60). -/
def HoldState.ofCode (c : BitVec 2) : Option HoldState :=
  match c.toNat with
  | 0 => some .free
  | 1 => some .exclusive
  | 2 => some .shared
  | _ => none

/-- An entry record as decoded. -/
structure EntryRecord where
  index : Byte
  claim : ClaimState
  deriving DecidableEq, Repr

/-- The two bytes of a waiter in a record. -/
def Waiter.bytes (w : Waiter) : List Byte :=
  [stationBits w.station ++ (if w.mode = .shared then 0x8#4 else 0x0#4), w.tag]

/-- The bytes of an entry record, its zero bits zero. -/
def ClaimState.recordBytes (index : Byte) (c : ClaimState) : List Byte :=
  [index, c.state.code ++ (0#2 ++ BitVec.ofNat 4 c.waiters.length)] ++ wordBytes c.holders ++ wordBytes c.generation ++
    c.waiters.flatMap Waiter.bytes

/-- The waiters of a run of pairs; the zero bits are not examined (R60). -/
def parseWaiters : List Byte → List Waiter
  | a :: b :: rest =>
    { station := stationOf ((a >>> 4).setWidth 4), mode := if a.getLsbD 3 then .shared else .excl, tag := b } ::
      parseWaiters rest
  | _ => []

/-- Walk a SNAP_ENTRY body record by record (R60): none if a record runs past the end or has STATE 11b. The first argument
bounds the number of records. -/
def parseRecords : Nat → List Byte → Option (List EntryRecord)
  | _, [] => some []
  | fuel + 1, index :: sw :: h1 :: h0 :: g1 :: g0 :: rest =>
    let w := (sw.setWidth 4).toNat
    if rest.length < 2 * w then none
    else
      match HoldState.ofCode ((sw >>> 6).setWidth 2), parseRecords fuel (rest.drop (2 * w)) with
      | some st, some more =>
        some ({ index := index, claim := { state := st, holders := wordOf h1 h0, waiters := parseWaiters (rest.take (2 * w)), generation := wordOf g1 g0 } } :: more)
      | _, _ => none
  | _, _ => none

/-- The records of a SNAP_ENTRY body; a record has at least 6 bytes. -/
def recordsOf (body : List Byte) : Option (List EntryRecord) := parseRecords body.length body

/-- Claim state of an entry. -/
def Entry.claimState (e : Entry) : ClaimState :=
  { state := e.state, holders := e.holders, waiters := e.waiters, generation := e.generation }

/-- An entry with its claim state taken from a record. -/
def Entry.withClaim (e : Entry) (c : ClaimState) : Entry :=
  { e with state := c.state, holders := c.holders, waiters := c.waiters, generation := c.generation }

/-! ### The SNAP_HEAD body (Table 3-5, R61) -/

/-- Roster code. -/
def Membership.code : Membership → BitVec 2
  | .absent => 0
  | .present => 1
  | .lapsed => 2

/-- Membership of a roster code; 11b is reserved (R61). -/
def Membership.ofCode (c : BitVec 2) : Option Membership :=
  match c.toNat with
  | 0 => some .absent
  | 1 => some .present
  | 2 => some .lapsed
  | _ => none

/-- One roster byte: four stations, the lowest number in the two most significant bits. -/
def rosterByte (a b c d : Membership) : Byte := a.code ++ b.code ++ c.code ++ d.code

/-- The four roster bytes. -/
def rosterBytes (r : Vector Membership 16) : List Byte :=
  [rosterByte r[0] r[1] r[2] r[3], rosterByte r[4] r[5] r[6] r[7], rosterByte r[8] r[9] r[10] r[11],
    rosterByte r[12] r[13] r[14] r[15]]

/-- The memberships of a roster byte, as codes. -/
def rosterCodes (b : Byte) : List (Option Membership) :=
  [Membership.ofCode ((b >>> 6).setWidth 2), Membership.ofCode ((b >>> 4).setWidth 2),
    Membership.ofCode ((b >>> 2).setWidth 2), Membership.ofCode (b.setWidth 2)]

/-- The roster of four bytes, none if a code is 11b. -/
def rosterOf (b0 b1 b2 b3 : Byte) : Option (Vector Membership 16) :=
  let codes := rosterCodes b0 ++ rosterCodes b1 ++ rosterCodes b2 ++ rosterCodes b3
  if codes.all Option.isSome then
    some (Vector.ofFn fun i : Fin 16 => ((codes[i.val]?).getD none).getD .absent)
  else none

/-- The fields of a SNAP_HEAD body. -/
structure HeadFields where
  digest : Word
  trainSequence : Word
  roster : Vector Membership 16
  tableSize : Nat
  poolInUse : Nat
  deriving DecidableEq, Repr

/-- The ten bytes of a SNAP_HEAD body. -/
def HeadFields.bytes (h : HeadFields) : List Byte :=
  wordBytes h.digest ++ wordBytes h.trainSequence ++ rosterBytes h.roster ++
    [BitVec.ofNat 8 h.tableSize, BitVec.ofNat 8 h.poolInUse]

/-- The fields of a well-formed SNAP_HEAD body: LEN 10, TABLE_SIZE 16, 32 or 64, pool count 48 or less, no roster code 11b
(R61). -/
def headOf : List Byte → Option HeadFields
  | [d1, d0, s1, s0, r0, r1, r2, r3, size, pool] =>
    if (size = 16#8 ∨ size = 32#8 ∨ size = 64#8) ∧ pool.toNat ≤ Config.poolSize then
      (rosterOf r0 r1 r2 r3).map fun roster =>
        { digest := wordOf d1 d0, trainSequence := wordOf s1 s0, roster := roster, tableSize := size.toNat,
          poolInUse := pool.toNat }
    else none
  | _ => none

/-! ### Frames as bits (Table 3-2, R55, R56) -/

/-- The data slots from CLASS to the last BODY bit, in the order sent. -/
def frameBits (f : RawFrame) : List Bool :=
  fieldBits f.cls ++ fieldBits f.station ++ fieldBits f.kind ++ [f.cont] ++ fieldBits f.seq ++ fieldBits f.len ++
    bytesBits f.body

/-- The check word a receiver computes over a frame. -/
def frameCheck (f : RawFrame) : Word := checkBits checkPreset (frameBits f)

/-- All data slots of a frame: CLASS to BODY, then CHECK. -/
def dataSlots (f : RawFrame) : List Bool := frameBits f ++ fieldBits f.check

/-- The frame a sender drives for a transmit buffer: CLASS and KIND set together from the kind, the strap number in
STATION, LEN the body's length, CHECK computed (R55, R56). -/
def TxFrame.raw (number : Station) (t : TxFrame) : RawFrame :=
  let f : RawFrame :=
    { cls := t.kind.cls, station := stationBits number, kind := t.kind.code, cont := t.cont, seq := t.seq,
      len := BitVec.ofNat 6 t.body.length, body := t.body, check := 0#16 }
  { f with check := frameCheck f }

/-! ### Reading data slots back into fields (R62) -/

/-- The number whose bits, most significant first, are given. -/
def bitsToNat (bits : List Bool) : Nat := bits.foldl (fun n b => 2 * n + b.toNat) 0

/-- The bytes of a run of bits, eight at a time. -/
def bitsToBytes : Nat → List Bool → List Byte
  | 0, _ => []
  | n + 1, bits => BitVec.ofNat 8 (bitsToNat (bits.take 8)) :: bitsToBytes n (bits.drop 8)

/-- LEN as it has come, in the six slots from the 28th (Table 3-2). -/
def lenSlots (slots : List Bool) : Nat := bitsToNat ((slots.drop 27).take 6)

/-- The data slots that run through the check accumulator, of those that have come: CLASS to the last BODY bit. LEN says where
BODY ends (R56, R62). -/
def coveredSlots (slots : List Bool) : List Bool :=
  if slots.length < 33 then slots else slots.take (33 + 8 * lenSlots slots)

/-- Every data slot has come, the last CHECK slot too: LEN says where CHECK lies (R55, R62). -/
def lastCheckCame (slots : List Bool) : Bool := decide (33 ≤ slots.length) && decide (49 + 8 * lenSlots slots ≤ slots.length)

/-- The check accumulator after the data slots that have come, CHECK's own slots left out (R56). -/
def slotsCheck (slots : List Bool) : Word := checkBits checkPreset (coveredSlots slots)

/-- The fields of Table 3-2 from the data slots as they arrive: LEN tells where BODY ends, and so where CHECK lies (R62).
None if the slots are not those of one whole frame. -/
def readFrame (bits : List Bool) : Option RawFrame :=
  let len := lenSlots bits
  if bits.length = 49 + 8 * len then
    some { cls := BitVec.ofNat 2 (bitsToNat (bits.take 2)),
           station := BitVec.ofNat 4 (bitsToNat ((bits.drop 2).take 4)),
           kind := BitVec.ofNat 4 (bitsToNat ((bits.drop 6).take 4)),
           cont := (bits.drop 10).headD false,
           seq := BitVec.ofNat 16 (bitsToNat ((bits.drop 11).take 16)),
           len := BitVec.ofNat 6 len,
           body := bitsToBytes len (bits.drop 33),
           check := BitVec.ofNat 16 (bitsToNat (bits.drop (33 + 8 * len))) }
  else none

/-! ### Format errors (R64, Table 3-8) -/

/-- The body checks of a kind that LEN and CHECK do not cover: resource indices against the local TABLE_SIZE (R58), whole
entry records of known indices (R60), the SNAP_HEAD's codes (R61). Every REAP target is accepted (R59). -/
def bodyGood (tableSize : Nat) (k : FrameKind) (body : List Byte) : Bool :=
  match k with
  | .claim | .release | .withdraw | .downgrade => decide ((body.headD 0xFF#8).toNat < tableSize)
  | .snapHead => (headOf body).isSome
  | .snapEntry =>
    match recordsOf body with
    | some records => records.all fun r => decide (r.index.toNat < tableSize)
    | none => false
  | .syncReq | .snapTail | .join | .leave | .heartbeat | .reap => true

/-- LEN is the kind's (R57): its fixed length, or 6 to 40 for SNAP_ENTRY. -/
def lenGood (k : FrameKind) (len : Nat) : Bool :=
  match k.fixedLen with
  | some n => len == n
  | none => 6 ≤ len && len ≤ 40

/-- The frame passes every check of Table 3-8 but truncation at a receiver of a TABLE_SIZE. -/
def frameGood (tableSize : Nat) (f : RawFrame) : Bool :=
  f.check == frameCheck f &&
    match FrameKind.ofCode f.kind with
    | none => false
    | some k => f.cls == k.cls && lenGood k f.len.toNat && bodyGood tableSize k f.body

end Sys2Proof.Machine
end

