-- ==== Sys2Proof/Machine/Table.lean ====
section
/-! DEFINITION. The table engine (ch. 1, ch. 2): grants, promotion, removal of a station, and the apply rules of the eight
state frames on a replica. Nothing here reads anything but the frame and the replica (01, opening). -/

namespace Sys2Proof.Machine

/-! ### Reading and writing entries -/

/-- The entry of a resource index; outside 0..63 the empty form. -/
def Replica.entry (r : Replica) (i : Nat) : Entry := r.table[i]?.getD Entry.empty

/-- Membership of a station. -/
def Replica.membership (r : Replica) (x : Station) : Membership := r.roster[x]

/-- A station's record is PRESENT. -/
def Replica.present (r : Replica) (x : Station) : Bool := r.membership x == .present

/-- A roster record written. -/
def Replica.setMembership (r : Replica) (x : Station) (m : Membership) : Replica :=
  { r with roster := r.roster.set x m }

/-- An entry written back. The pool gives a record for each waiter appended and takes one for each that left (R12). -/
def Replica.setEntry (r : Replica) (i : Nat) (e : Entry) : Replica :=
  { r with table := r.table.setIfInBounds i e,
           poolInUse := r.poolInUse + e.waiters.length - (r.entry i).waiters.length }

/-! ### Grants and promotion -/

/-- A grant made by promotion: the waiter record granted and the GENERATION after the grant (R21, R22). -/
structure Grant where
  waiter : Waiter
  generation : Word
  deriving DecidableEq, Repr

/-- The station is named in a waiter record of the entry. -/
def Entry.waits (e : Entry) (x : Station) : Bool := e.waiters.any fun w => w.station == x

/-- STATE of a hold granted in a mode (R21). -/
def Mode.holdState : Mode → HoldState
  | .excl => .exclusive
  | .shared => .shared

/-- Grant of station x in mode m, whose waiter record, if it had one, has left the list: HOLDERS, STATE, GENERATION
(R21). -/
def Entry.grant (e : Entry) (x : Station) (m : Mode) : Entry :=
  { e with holders := e.holders.addStation x, state := m.holdState, generation := e.generation + 1#16 }

/-- Promotion over a wait list, head first (R20): an EXCL head is granted when HOLDERS is empty and promotion stops; a
SHARED head is granted when STATE is not EXCLUSIVE and the step repeats; in every other case it stops. -/
def promoteFrom : List Waiter → Entry → Entry × List Grant
  | [], e => ({ e with waiters := [] }, [])
  | w :: ws, e =>
    match w.mode with
    | .excl =>
      if e.holders = 0#16 then
        ({ e.grant w.station .excl with waiters := ws }, [{ waiter := w, generation := e.generation + 1#16 }])
      else ({ e with waiters := w :: ws }, [])
    | .shared =>
      if e.state = .exclusive then ({ e with waiters := w :: ws }, [])
      else
        let r := promoteFrom ws (e.grant w.station .shared)
        (r.1, { waiter := w, generation := e.generation + 1#16 } :: r.2)

/-- Promotion of an entry (R20). -/
def Entry.promote (e : Entry) : Entry × List Grant := promoteFrom e.waiters e

/-! ### Outcomes of table frames (Table 1-3) -/

/-- Outcome codes (Table 1-3). -/
inductive OutcomeCode where
  | granted
  | queued
  | busy
  | poolFull
  | notPermitted
  | already
  | released
  | notHeld
  | withdrawn
  | none
  | downgraded
  deriving DecidableEq, Repr

/-- What a table frame does to its entry. -/
structure EntryResult where
  entry : Entry
  code : OutcomeCode
  grants : List Grant
  deriving DecidableEq, Repr

/-- An outcome that leaves the entry as it was. -/
def Entry.unchanged (e : Entry) (code : OutcomeCode) : EntryResult := { entry := e, code := code, grants := [] }

/-- Promotion runs, and the outcome is the code given. -/
def Entry.promoted (e : Entry) (code : OutcomeCode) : EntryResult :=
  { entry := e.promote.1, code := code, grants := e.promote.2 }

/-- Grantable now (R15, Table 1-4). -/
def Entry.grantableNow (e : Entry) (m : Mode) : Bool :=
  e.waiters.isEmpty && (e.state == .free || (e.state == .shared && m == .shared))

/-- CLAIM (R14, R15, R16) on its entry, with the pool's count in use. -/
def Entry.applyClaim (e : Entry) (poolInUse : Nat) (x : Station) (m : Mode) (mayWait : Bool) (tag : Byte) : EntryResult :=
  if !e.permit.has x || (m == .shared && !e.sharedOk) then e.unchanged .notPermitted
  else if e.holders.has x || e.waits x then e.unchanged .already
  else if e.grantableNow m then { entry := e.grant x m, code := .granted, grants := [] }
  else if !mayWait then e.unchanged .busy
  else if Config.poolSize ≤ poolInUse then e.unchanged .poolFull
  else { entry := { e with waiters := e.waiters ++ [{ station := x, mode := m, tag := tag }] }, code := .queued, grants := [] }

/-- A hold taken out of HOLDERS; STATE becomes FREE when HOLDERS is then empty (R17, R23). -/
def Entry.dropHolder (e : Entry) (x : Station) : Entry :=
  if e.holders.has x then
    { e with holders := e.holders.dropStation x, state := if e.holders.dropStation x = 0#16 then .free else e.state }
  else e

/-- A waiter record taken out, wherever it stands (R18, R23). -/
def Entry.dropWaiter (e : Entry) (x : Station) : Entry :=
  { e with waiters := e.waiters.filter fun w => w.station != x }

/-- RELEASE (R17). -/
def Entry.applyRelease (e : Entry) (x : Station) : EntryResult :=
  if e.holders.has x then (e.dropHolder x).promoted .released else e.unchanged .notHeld

/-- WITHDRAW (R18). -/
def Entry.applyWithdraw (e : Entry) (x : Station) : EntryResult :=
  if e.waits x then (e.dropWaiter x).promoted .withdrawn else e.unchanged .none

/-- DOWNGRADE (R19). -/
def Entry.applyDowngrade (e : Entry) (x : Station) : EntryResult :=
  if e.state != .exclusive || !e.holders.has x then e.unchanged .notHeld
  else if !e.sharedOk then e.unchanged .notPermitted
  else ({ e with state := .shared } : Entry).promoted .downgraded

/-- Removal of station x at one entry: hold, waiter record, promotion, in this order (R23). -/
def Entry.remove (e : Entry) (x : Station) : Entry × List Grant := ((e.dropHolder x).dropWaiter x).promote

/-! ### Applying state frames to the replica -/

/-- A state frame's kind with the body fields the table engine uses (1.4, 2.2). -/
inductive StateBody where
  | claim (resource : Byte) (mode : Mode) (mayWait : Bool) (tag : Byte)
  | release (resource : Byte)
  | withdraw (resource : Byte)
  | downgrade (resource : Byte)
  | join
  | leave
  | heartbeat
  | reap (target : Byte)
  deriving DecidableEq, Repr

/-- A grant with the resource it is on. -/
structure TableGrant where
  resource : Nat
  grant : Grant
  deriving DecidableEq, Repr

/-- The result of an apply: the replica after it, the outcome with the entry's GENERATION after the apply (R13), and the
grants in the order they were made (R22). -/
structure Applied where
  replica : Replica
  outcome : Option (OutcomeCode × Word)
  grants : List TableGrant
  deriving DecidableEq, Repr

/-- A table frame's effect on the replica. -/
def Replica.applyEntry (r : Replica) (i : Nat) (f : Entry → EntryResult) : Applied :=
  let res := f (r.entry i)
  { replica := r.setEntry i res.entry, outcome := some (res.code, res.entry.generation),
    grants := res.grants.map fun g => { resource := i, grant := g } }

/-- Removal of station x from every entry below TABLE_SIZE, in ascending index (R23). The pool takes back the records that
left (R12). -/
def Replica.removeStation (r : Replica) (tableSize : Nat) (x : Station) : Applied :=
  { replica :=
      { r with table := Vector.ofFn fun i : Fin 64 => if i.val < tableSize then (r.table[i].remove x).1 else r.table[i],
               poolInUse := r.poolInUse -
                 ((List.range tableSize).map fun i => (r.entry i).waiters.length - ((r.entry i).remove x).1.waiters.length).sum },
    outcome := none,
    grants := (List.range tableSize).flatMap fun i => ((r.entry i).remove x).2.map fun g => { resource := i, grant := g } }

/-- An apply that changes nothing but the sequence. -/
def Replica.noEffect (r : Replica) : Applied := { replica := r, outcome := none, grants := [] }

/-- The target of a REAP, if the byte names a station (R38, R59). -/
def reapTarget (b : Byte) : Option Station := if h : b.toNat < 16 then some ⟨b.toNat, h⟩ else none

/-- What a state frame from a sender changes in the replica before the sequence advances: the rules for a PRESENT sender
(R14 to R19, R33 to R38). -/
def Replica.effect (r : Replica) (tableSize : Nat) (x : Station) : StateBody → Applied
  | .claim res m w t => r.applyEntry res.toNat fun e => e.applyClaim r.poolInUse x m w t
  | .release res => r.applyEntry res.toNat fun e => e.applyRelease x
  | .withdraw res => r.applyEntry res.toNat fun e => e.applyWithdraw x
  | .downgrade res => r.applyEntry res.toNat fun e => e.applyDowngrade x
  | .join => if r.present x then r.removeStation tableSize x else (r.setMembership x .present).noEffect
  | .leave => (r.setMembership x .absent).removeStation tableSize x
  | .heartbeat => r.noEffect
  | .reap target =>
    match reapTarget target with
    | some t => if r.present t then (r.setMembership t .lapsed).removeStation tableSize t else r.noEffect
    | none => r.noEffect

/-- A state frame other than JOIN from a sender that is not PRESENT is a no-op (R10, R31). -/
def Replica.admits (r : Replica) (x : Station) (b : StateBody) : Bool := b == .join || r.present x

/-- The apply of a state frame: its effect, or the no-op, and then one advance of the table sequence (R25). -/
def Replica.apply (r : Replica) (tableSize : Nat) (x : Station) (b : StateBody) : Applied :=
  let a := if r.admits x b then r.effect tableSize x b else r.noEffect
  { a with replica := { a.replica with sequence := a.replica.sequence + 1#16 } }

/-! ### Founding and installation (R127, R119) -/

/-- An entry's attribute copy loaded from the locked block (R5); indices at and above TABLE_SIZE have no entry. -/
def PortUnit.entryWith (p : PortUnit) (i : Nat) (c : ClaimState) : Entry :=
  if i < p.tableSize then
    { permit := p.permit i, sharedOk := p.sharedOk i, state := c.state, holders := c.holders, waiters := c.waiters,
      generation := c.generation }
  else Entry.empty

/-- Claim state of a FREE entry that was never granted. -/
def ClaimState.free : ClaimState := { state := .free, holders := 0#16, waiters := [], generation := 0#16 }

/-- The founded replica (R127). -/
def PortUnit.founded (p : PortUnit) (number : Station) : Replica :=
  { table := Vector.ofFn fun i : Fin 64 => p.entryWith i.val .free, poolInUse := 0,
    roster := (Vector.replicate 16 Membership.absent).set number .present, sequence := 1#16, valid := true }

/-- The installed replica (R119). -/
def PortUnit.installed (p : PortUnit) (sh : Shadow) : Replica :=
  { table := Vector.ofFn fun i : Fin 64 => p.entryWith i.val ((sh.claims[i.val]?).getD .free), poolInUse := sh.poolInUse,
    roster := sh.roster, sequence := sh.trainSequence, valid := true }

end Sys2Proof.Machine
end

