-- ==== Sys2Proof/Machine/Request.lean ====
section
/-! DEFINITION. The request unit (ch. 8): contexts, completions, causes and grant notices, on the request unit alone. -/

namespace Sys2Proof.Machine

/-! ### Contexts -/

/-- A context is marked when its cause is not NONE (R140). -/
def Context.marked (c : Context) : Bool := c.cause != .none

/-- A context that is not DONE. -/
def Context.isOpen (c : Context) : Bool := c.state != .done

/-- Record a cause, if none is recorded yet (R140). The wait timer stops (R144, R146). -/
def Context.mark (c : Context) (cause : Cause) : Context :=
  { c with cause := if c.cause = .none then cause else c.cause, waitTimer := .stopped }

/-- The result that a recorded cause completes with. An unmarked context has no cause to complete with; no rule asks for
one. -/
def Cause.result : Cause → Option Result
  | .none => Option.none
  | .timedOut => some .timedOut
  | .cancelled => some .cancelled

/-- What a completion takes from the event that made it (R155). -/
structure Completion where
  result : Result
  tooLate : Bool
  generation : Word
  sequence : Word
  deriving DecidableEq, Repr

/-- A completion without TOO_LATE and with 0 in GENERATION and sequence (R155, "every other completion"). -/
def Completion.plain (r : Result) : Completion := { result := r, tooLate := false, generation := 0#16, sequence := 0#16 }

/-- The completion record a context writes (R155). -/
def Context.record (c : Context) (k : Completion) : CompletionRecord :=
  { tag := c.tag, kind := c.kind, mode := c.mode, tooLate := k.tooLate, result := k.result, resource := c.resource,
    generation := k.generation, sequence := k.sequence }

/-- The context becomes DONE and its wait timer stops (R144, R155). -/
def Context.finish (c : Context) : Context := { c with state := .done, withdrawPhase := .none, waitTimer := .stopped }

/-- A completion decided for a context, if it is open. -/
def Context.decided (f : Context → Option Completion) (c : Context) : Option Completion := if c.isOpen then f c else none

/-- Complete every open context for which a completion is decided, in acceptance order: one record each, appended at the
queue's tail (R155, R156). -/
def RequestUnit.complete (r : RequestUnit) (f : Context → Option Completion) : RequestUnit :=
  { contexts := r.contexts.map fun c => if (c.decided f).isSome then c.finish else c,
    queue := r.queue ++ r.contexts.filterMap fun c => (c.decided f).map c.record }

/-- The context in use with a tag. -/
def RequestUnit.find (r : RequestUnit) (tag : Byte) : Option Context := r.contexts.find? fun c => c.tag == tag

/-- Change the context with a tag. -/
def RequestUnit.update (r : RequestUnit) (tag : Byte) (f : Context → Context) : RequestUnit :=
  { r with contexts := r.contexts.map fun c => if c.tag == tag then f c else c }

/-- Complete the open context with a tag. -/
def RequestUnit.completeTag (r : RequestUnit) (tag : Byte) (k : Completion) : RequestUnit :=
  r.complete fun c => if c.tag == tag then some k else none

/-- Complete the open context with a tag with its recorded cause (R144, R147, R148). -/
def RequestUnit.completeCause (r : RequestUnit) (tag : Byte) (generation sequence : Word) : RequestUnit :=
  r.complete fun c =>
    if c.tag == tag then
      c.cause.result.map fun res => { result := res, tooLate := false, generation := generation, sequence := sequence }
    else none

/-- The completions of an entry into EVICTED or REFUSED: every context not DONE (R151). -/
def RequestUnit.evictAll (r : RequestUnit) (sequence : Word) : RequestUnit :=
  r.complete fun _ => some { result := .evicted, tooLate := false, generation := 0#16, sequence := sequence }

/-- The completions of an entry into LEAVING: QUEUED_LOCAL and CONTENDING contexts (R152). -/
def RequestUnit.abandonUnsent (r : RequestUnit) : RequestUnit :=
  r.complete fun c => if c.state = .queuedLocal ∨ c.state = .contending then some (.plain .abandoned) else none

/-- The completions of an entry into DEPARTED: WAITING and WITHDRAWING contexts (R133, R152). -/
def RequestUnit.abandonWaits (r : RequestUnit) (sequence : Word) : RequestUnit :=
  r.complete fun c =>
    if c.state = .waiting ∨ c.state = .withdrawing then
      some { result := .abandoned, tooLate := false, generation := 0#16, sequence := sequence }
    else none

/-! ### The contention unit's reports (R141) -/

/-- The start mark of a context frame begins. -/
def Context.offered (c : Context) : Context :=
  match c.state with
  | .queuedLocal => { c with state := .contending }
  | .withdrawing => { c with withdrawPhase := .contending }
  | _ => c

/-- A context frame passes arbitration. -/
def Context.passed (c : Context) : Context :=
  match c.state with
  | .contending => { c with state := .transmitting }
  | .withdrawing => { c with withdrawPhase := .transmitting }
  | _ => c

/-- An attempt of an unmarked context's frame, or of a WITHDRAW, fails (R141, R148). -/
def Context.failed (c : Context) : Context :=
  match c.state with
  | .transmitting => { c with state := .contending }
  | .withdrawing => { c with withdrawPhase := .contending }
  | _ => c

/-- A stale send: back to QUEUED_LOCAL, or WITHDRAWING with withdraw phase QUEUED (R95, R142). -/
def Context.stale (c : Context) : Context :=
  match c.state with
  | .transmitting => { c with state := .queuedLocal }
  | .withdrawing => { c with withdrawPhase := .queued }
  | _ => c

/-- A marked context in TRANSMITTING: its frame's failure completes it (R147). -/
def Context.markedSend (c : Context) : Bool := c.state == .transmitting && c.marked

/-- A WAITING claim, or a marked one that was QUEUED, turns to WITHDRAWING (Table 8-6, R147). -/
def Context.withdraw (c : Context) : Context := { c with state := .withdrawing, withdrawPhase := .queued }

/-! ### Outcomes, notices, reconciliation -/

/-- The result of an outcome that ends a CLAIM, RELEASE or DOWNGRADE (Table 8-5). -/
def OutcomeCode.result : OutcomeCode → Option Result
  | .granted => some .granted
  | .busy => some .busy
  | .poolFull => some .poolFull
  | .notPermitted => some .notPermitted
  | .already => some .already
  | .released => some .released
  | .notHeld => some .notHeld
  | .downgraded => some .downgraded
  | .queued => Option.none
  | .withdrawn => Option.none
  | .none => Option.none

/-- The completion a grant notice makes of a context (R143): the tag and the resource match, and it is WAITING, or
WITHDRAWING and then TOO_LATE. -/
def Context.noticed (tag : Byte) (resource : Nat) (generation sequence : Word) (c : Context) : Option Completion :=
  if c.tag = tag ∧ c.resource.toNat = resource ∧ (c.state = .waiting ∨ c.state = .withdrawing) then
    some { result := .granted, tooLate := c.state == .withdrawing, generation := generation, sequence := sequence }
  else none

/-- Reconciliation of one context against the installed replica (Table 8-7, R155): none keeps it as it is. -/
def Context.reconciled (r : Replica) (number : Station) (c : Context) : Option Completion :=
  if c.state = .waiting ∨ c.state = .withdrawing then
    let e := r.entry c.resource.toNat
    if e.holders.has number then
      some { result := .granted, tooLate := c.state == .withdrawing, generation := e.generation, sequence := r.sequence }
    else if e.waits number then none
    else some { result := .evicted, tooLate := false, generation := 0#16, sequence := r.sequence }
  else none

/-- The contexts in use never exceed eight; a free one exists (R138). -/
def RequestUnit.full (r : RequestUnit) : Bool := Config.contextCount ≤ r.contexts.length

/-- Remove the record a TAKE captured from the head of the queue and free its context (R157). -/
def RequestUnit.take (r : RequestUnit) (tag : Byte) : RequestUnit :=
  { contexts := r.contexts.filter fun c => !(c.tag == tag && c.state == .done), queue := r.queue.tail }

end Sys2Proof.Machine
end

