-- ==== Sys2Proof/Machine/Ops.lean ====
section
/-! DEFINITION. The operations that several commands share: port transactions, the send list and the current offer, holds,
the changes of station state, and the handling of completed frames at receiver and sender. -/

namespace Sys2Proof.Machine

/-! ### Port transactions (R159, R160) -/

/-- CSn falls: the header byte is sampled (R159). A TAKE before it has ended without its record's removal (R157). -/
def State.csnFalls (s : State) : State := { s with port := { s.port with selected := some s.header, capture := none } }

/-- The header byte that a transaction shifts out: sampled when CSn fell, or, when no event has come since, now (R159, R162). -/
def State.shiftedHeader (s : State) : Byte := s.port.selected.getD s.header

/-- The bytes SDO shifts out while `after` whole bytes are clocked behind the input: the output bytes, then 00h (R159). -/
def outputBytes (after : Nat) (out : List Byte) : List Byte := (out ++ List.replicate (after - out.length) 0#8).take after

/-- A whole transaction, CSn high again: SDO has shifted out the header byte, 00h for each further input byte, and what the bytes
clocked after the input brought. -/
def State.shiftOut (s : State) (inputs after : Nat) (out : List Byte) (t : State) : State :=
  { t with port := { t.port with selected := none, sdo := s.shiftedHeader :: (List.replicate inputs 0#8 ++ outputBytes after out), capture := none } }

/-- A write transaction that returns a status. -/
def State.answerStatus (s : State) (inputs after : Nat) (st : PortStatus) (t : State) : State := s.shiftOut inputs after [st.code] t

/-- The two moments of a transaction: CSn falls, or the transaction runs, with the number of bytes clocked after its input. -/
def State.transact (s : State) (spi : Spi) (run : Nat → State) : State :=
  match spi with
  | .csnFalls => s.csnFalls
  | .clocked after => run after

/-! ### The line (R52, R56, R62, R65) -/

/-- The receive buffer is FILLING. -/
def RxBuffer.isFilling : RxBuffer → Bool
  | .filling _ => true
  | .empty | .held _ => false

/-- The receive buffer is HELD. -/
def RxBuffer.isHeld : RxBuffer → Bool
  | .held _ => true
  | .empty | .filling _ => false

/-- A start mark is recognised: FILLING, the check accumulator preset, the idle count zero, no answer driven yet (R52, R62). -/
def LineUnit.startMark (l : LineUnit) : LineUnit :=
  { l with idleCount := 0, rx := .filling [], checkAcc := checkPreset, answer := none }

/-- A start mark recognised while the buffer is HELD, of an overrun frame: the check accumulator is preset as at any start mark
(R56), the held frame stays, and the new one's slots are followed without being stored (R65). -/
def LineUnit.overrunMark (l : LineUnit) : LineUnit :=
  { l with idleCount := 0, checkAcc := checkPreset, answer := none, overrun := true }

/-- The data slots that have come so far, CLASS first, as sampled (R62). -/
def LineUnit.sampled (l : LineUnit) (slots : List Bool) : LineUnit := { l with rx := .filling slots, checkAcc := slotsCheck slots }

/-- A frame is followed on the line: its slots fill the receive buffer, or it is an overrun (R62, R65). -/
def LineUnit.inFrame (l : LineUnit) : Bool := l.rx.isFilling || l.overrun

/-- Transceiver and frame engine at their values after hardware reset, START and RESTART; the level of the line is not theirs, and
stays (R54). -/
def LineUnit.restarted (l : LineUnit) : LineUnit := { LineUnit.reset with dominantLeft := l.dominantLeft }

/-- The idle count stands at n (R52). At START_GAP and beyond a held frame has been delivered and the buffer is EMPTY (R62). -/
def LineUnit.idleAt (l : LineUnit) (n : Nat) : LineUnit :=
  { l with idleCount := n, rx := if l.rx.isHeld && decide (Config.startGap ≤ n) then .empty else l.rx }

/-! ### The send list and the current offer (R68, R75) -/

/-- An offer from a source that satisfies p stops driving if it is in its arbitration field; past it, it runs on (R75). -/
def ContentionUnit.stopArbitration (c : ContentionUnit) (p : OfferSource → Bool) : ContentionUnit :=
  { c with offer := c.offer.filter fun o => !(o.phase == .arbitrating && p o.source) }

/-- A new send-list entry at the tail with attempt count 0 (R68). -/
def ContentionUnit.addEntry (c : ContentionUnit) (e : SendEntry) : ContentionUnit := { c with sendList := c.sendList ++ [e] }

/-- The WITHDRAW entry of a context (R68). -/
def Context.withdrawEntry (c : Context) : SendEntry :=
  { kind := .withdraw, tag := c.tag, resource := c.resource, mode := .excl, mayWait := false, attempts := 0, carried := false }

/-- Entries that satisfy p are removed; one in its arbitration field stops driving (R68, R75). -/
def ContentionUnit.removeEntries (c : ContentionUnit) (p : Byte → Bool) : ContentionUnit :=
  ({ c with sendList := c.sendList.filter fun e => !p e.tag } : ContentionUnit).stopArbitration fun src =>
    match src with
    | .entry tag => p tag
    | _ => false

/-- The entry of a tag is removed. -/
def ContentionUnit.removeEntry (c : ContentionUnit) (tag : Byte) : ContentionUnit := c.removeEntries fun t => t == tag

/-- The entry of a tag is changed where it stands. -/
def ContentionUnit.updateEntry (c : ContentionUnit) (tag : Byte) (f : SendEntry → SendEntry) : ContentionUnit :=
  { c with sendList := c.sendList.map fun e => if e.tag == tag then f e else e }

/-- The station-frame flags cleared with their attempt counts (R69, R83); one in its arbitration field stops driving
(R75). -/
def ContentionUnit.clearStationFrames (c : ContentionUnit) : ContentionUnit :=
  ({ c with joinPending := false, leavePending := false, syncReqPending := false, heartbeatDue := false,
            trainIntent := false, attempts := .zero } : ContentionUnit).stopArbitration fun src =>
    match src with
    | .entry _ => false
    | _ => true

/-- What the contention unit clears when the station leaves IN_STEP or LEAVING: heartbeat due, train intent, the REAP
being offered (its set is emptied) and LEAVE pending (R69, R83). -/
def ContentionUnit.leaveMember (c : ContentionUnit) : ContentionUnit :=
  ({ c with leavePending := false, heartbeatDue := false, trainIntent := false,
            attempts := { c.attempts with train := 0, leave := 0, heartbeat := 0, reap := 0, reapTarget := none } } :
      ContentionUnit).stopArbitration fun src =>
    match src with
    | .train | .leave | .heartbeat | .reap _ => true
    | _ => false

/-- SYNC_REQ pending cleared without a completion (R69, R83). -/
def ContentionUnit.clearSyncReq (c : ContentionUnit) : ContentionUnit :=
  ({ c with syncReqPending := false, attempts := { c.attempts with syncReq := 0 } } : ContentionUnit).stopArbitration fun src =>
    src == .syncReq

/-- Train intent cleared without a completion (R69, R83). -/
def ContentionUnit.clearTrainIntent (c : ContentionUnit) : ContentionUnit :=
  ({ c with trainIntent := false, attempts := { c.attempts with train := 0 } } : ContentionUnit).stopArbitration fun src =>
    src == .train

/-! ### The lease unit -/

/-- A lease countdown's value is set (R41, R43); the local number has none (R40). -/
def State.setLease (s : State) (x : Station) (us : Nat) : State :=
  if x = s.ctl.number then s else { s with lease := { s.lease with remaining := s.lease.remaining.set x us } }

/-- No hold by a station other than x is in force. -/
def State.freeOfOtherHold (s : State) (x : Station) : Bool :=
  match s.cont.hold with
  | none => true
  | some h => h == x

/-- The countdown for x runs: it has time left and the three conditions of R42 hold. -/
def State.leaseRunning (s : State) (x : Station) : Bool :=
  x != s.ctl.number && s.replica.present x && s.ctl.state == .inStep && s.freeOfOtherHold x && s.lease.remaining[x] != 0

/-- A station leaves the reap set (R45); the REAP attempt count for it restarts (R83, log entry 12). -/
def State.dropReap (s : State) (x : Station) : State :=
  { s with lease := { s.lease with reapSet := s.lease.reapSet.dropStation x },
           cont := { s.cont with attempts :=
             if s.cont.attempts.reapTarget = some x then { s.cont.attempts with reap := 0, reapTarget := none }
             else s.cont.attempts } }

/-! ### Trains -/

/-- The station is serving: its own SNAP_HEAD has completed and the train has not ended (R106). -/
def State.serving (s : State) : Bool := s.sync.phase == .entries || s.sync.phase == .tail

/-- A train ends: phase NONE, cursor 0, send check all ones (R111, R112); with train intent set a new SNAP_HEAD is to be
offered (R108). -/
def State.endTrain (s : State) : State :=
  { s with sync := { s.sync with phase := if s.cont.trainIntent && s.ctl.state == .inStep then .head else .none, cursor := 0, sendCheck := checkPreset },
           cont := { s.cont with attempts := { s.cont.attempts with train := 0 } } }

/-- The shadow is discarded and SYNC_REQ pending is set (R115, R116, R117). -/
def State.dropShadow (s : State) : State :=
  { s with sync := { s.sync with shadow := none }, cont := { s.cont with syncReqPending := true } }

/-! ### Changes of station state -/

/-- What every unit clears when the station leaves IN_STEP or LEAVING (R40, R44, R47, R69, R112, R131). -/
def State.leaveMember (s : State) : State :=
  { s with lease := .reset, cont := s.cont.leaveMember,
           sync := { s.sync with phase := .none, cursor := 0, sendCheck := checkPreset } }

/-- Entry into LISTENING (R99, R123). -/
def State.enterListening (s : State) : State :=
  { s with ctl := { s.ctl with state := .listening, joinWait := .running (s.leaseUs / 2), heardState := false, rejectCount := 0 },
           cont := ({ s.cont with joinPending := false, attempts := { s.cont.attempts with join := 0 } } : ContentionUnit).stopArbitration fun src => src == .join }

/-- Entry into DEPARTED, EVICTED or REFUSED, one step (R134): the replica is discarded (R2), lease, contention and sync
units clear their state, counts and join wait are cleared, the send list is emptied. Contexts and the event flag are the
caller's. Hold, silent and turn-used go on following the line (R67). -/
def State.enterEnd (s : State) (st : StationState) : State :=
  { s with replica := .empty, lease := .reset, sync := .reset,
           cont := (s.cont.clearStationFrames).removeEntries fun _ => true,
           ctl := { s.ctl with state := st, joinWait := .stopped, heardState := false, rejectCount := 0, cleanCount := 0 } }

/-- Entry into EVICTED or REFUSED with its event flag: every context not DONE completes EVICTED with the sequence given
(R151). -/
def State.expel (s : State) (st : StationState) (flag : EventFlag) (sequence : Word) : State :=
  ({ s.enterEnd st with req := s.req.evictAll sequence } : State).raise flag

/-- Entry into DEPARTED; no flag (R133, R134). -/
def State.depart (s : State) (sequence : Word) : State :=
  { s.enterEnd .departed with req := s.req.abandonWaits sequence }

/-- Loss of step (R93, R104). On a frame from another card with the local number the station passes through to REFUSED and
LOST_STEP is not set (R129). -/
def State.loseStep (s : State) (quiet : Bool) : State :=
  let t := s.leaveMember
  let t := { t with replica := { t.replica with valid := false }, ctl := { t.ctl with state := .outOfStep },
                    cont := { t.cont with syncReqPending := true } }
  if quiet then t else t.raise .lostStep

/-! ### Holds (R80, R82) -/

/-- The hold of a station ends by timeout or intrusion: hold NONE, silent clear; a shadow from that holder's train is
discarded with TRAIN_LOST and SYNC_REQ pending (R117); a train being served ends (R112). -/
def State.abandonHold (s : State) (holder : Station) : State :=
  let s := { s with cont := { s.cont with hold := none, silent := false } }
  let s := if s.sync.shadow.any fun sh => sh.source == holder then s.dropShadow.raise .trainLost else s
  if s.serving then s.endTrain else s

/-- What a frame completed with REJECT recessive does to the hold: release by the holder's CONT = 0, intrusion by another
station's frame, and then a hold for the sender if CONT = 1 (R80, R82). -/
def State.followHold (s : State) (sender : Station) (cont : Bool) : State :=
  let s :=
    match s.cont.hold with
    | none => s
    | some h =>
      if h = sender then (if cont then s else { s with cont := { s.cont with hold := none, silent := false } })
      else s.abandonHold h
  if cont then { s with cont := { s.cont with hold := some sender } } else s

/-! ### Requests: cause, outcomes, notices -/

/-- Effect of a wait-timer expiry or a CANCEL on the open context with a tag, by its state (Table 8-6). -/
def State.endByCause (s : State) (tag : Byte) (cause : Cause) : State :=
  match s.req.find tag with
  | none => s
  | some c =>
    let s := { s with req := s.req.update tag fun c => c.mark cause }
    match c.state with
    | .queuedLocal | .contending =>
      { s with req := s.req.completeCause tag 0#16 0#16, cont := s.cont.removeEntry tag }
    | .waiting => { s with req := s.req.update tag Context.withdraw, cont := s.cont.addEntry c.withdrawEntry }
    | .transmitting | .withdrawing | .done => s

/-- The outcome of the station's own applied table frame at the context whose frame it was (R142, R147, R148). -/
def State.takeOutcome (s : State) (tag : Byte) (code : OutcomeCode) (generation sequence : Word) : State :=
  match s.req.find tag with
  | none => s
  | some c =>
    match c.state with
    | .transmitting =>
      match code.result with
      | some res =>
        { s with req := s.req.completeTag tag { result := res, tooLate := c.marked, generation := generation, sequence := sequence } }
      | none =>
        if c.marked then { s with req := s.req.update tag Context.withdraw, cont := s.cont.addEntry c.withdrawEntry }
        else { s with req := s.req.update tag fun c => { c with state := .waiting } }
    | .withdrawing => { s with req := s.req.completeCause tag generation sequence }
    | _ => s

/-- A grant notice (R143): the matching WAITING or WITHDRAWING context completes GRANTED, and a WITHDRAW entry of it is
removed; a notice that matches none is dropped. -/
def State.notice (s : State) (sequence : Word) (g : TableGrant) : State :=
  if g.grant.waiter.station = s.ctl.number then
    let k := Context.noticed g.grant.waiter.tag g.resource g.grant.generation sequence
    { s with req := s.req.complete k,
             cont := if s.req.contexts.any fun c => (k c).isSome && c.state == .withdrawing then s.cont.removeEntry g.grant.waiter.tag else s.cont }
  else s

/-! ### Applying a state frame (ch. 2, ch. 5) -/

/-- What the units do when a state frame has been applied, by kind, after the outcome and the notices: lease countdown and
PEER_JOINED or a clash for JOIN (R33 to R35), DEPARTED for the station's own LEAVE (R36), reap set, PEER_LAPSED or eviction
for REAP (R38, R39). `before` is the replica before the frame, `sequence` the table sequence after it. -/
def State.afterApply (s : State) (own : Bool) (before : Replica) (sender : Station) (sequence : Word) : StateBody → State
  | .join =>
    if sender = s.ctl.number then s.expel .refused .clash sequence
    else (s.setLease sender s.leaseUs).raise .peerJoined
  | .leave => if own then s.depart sequence else s
  | .reap target =>
    match reapTarget target with
    | some t =>
      if before.present t then
        if t = s.ctl.number then s.expel .evicted .evicted sequence else s.raise .peerLapsed
      else s
    | none => s
  | .claim _ _ _ _ | .release _ | .withdraw _ | .downgrade _ | .heartbeat => s

/-- The target of an applied REAP leaves the reap set, whoever sent the REAP and whatever the target's record was (R38, R45,
log entry 10). -/
def State.dropReaped (s : State) : StateBody → State
  | .reap target =>
    match reapTarget target with
    | some t => s.dropReap t
    | none => s
  | .claim _ _ _ _ | .release _ | .withdraw _ | .downgrade _ | .join | .leave | .heartbeat => s

/-- The heartbeat timer restarts at LEASE/4 and heartbeat due is cleared, in IN_STEP (R48). -/
def State.restartHeartbeat (s : State) : State :=
  if s.ctl.state = .inStep then
    { s with lease := { s.lease with heartbeat := .running (s.leaseUs / 4) },
             cont := { s.cont with heartbeatDue := false, attempts := { s.cont.attempts with heartbeat := 0 } } }
  else s

/-- The table engine applies a state frame: the replica changes, the outcome goes to the station's own context, grant
notices follow in grant order, then the effects by kind; the sender restarts its heartbeat timer (R4, R13, R22, R48).
`tag` is the tag of the context whose frame it was, for a frame of the station's own. -/
def State.applyFrame (s : State) (own : Bool) (tag : Option Byte) (sender : Station) (b : StateBody) : State :=
  let before := s.replica
  let a := before.apply s.tableSize sender b
  let seq := a.replica.sequence
  let s := { s with replica := a.replica }
  let s :=
    match tag, a.outcome with
    | some t, some (code, gen) => s.takeOutcome t code gen seq
    | _, _ => s
  let s := a.grants.foldl (fun s g => s.notice seq g) s
  let s := if own then s.restartHeartbeat else s
  let s := s.dropReaped b
  if before.admits sender b then s.afterApply own before sender seq b else s

/-! ### A frame heard -/

/-- An offer in its arbitration field has lost to the frame that went on (R73): it stops driving and nothing else changes. -/
def ContentionUnit.loseArbitration (c : ContentionUnit) : ContentionUnit := c.stopArbitration fun _ => true

/-- The station's own frame is past arbitration: the line is its own until the frame ends (R76). -/
def State.sendingOwn (s : State) : Bool := s.cont.offer.any fun o => o.phase != .arbitrating

/-- The station follows the line, no frame of its own is past arbitration and no overrun is followed: another station's frame
can complete here (R54, R65, R76). -/
def State.canHear (s : State) : Bool := s.active && !s.sendingOwn && !s.line.overrun

/-- The line after the last slot of a frame: the idle count starts at zero (R52); the receive buffer, the check
accumulator, and the answer slot this station drove. A line that was held dominant before the frame began has been released, or
no edge of the frame could have come; one that a fault holds dominant from within the frame still is (log entry 24). -/
def State.frameEnds (s : State) (rx : RxBuffer) (acc : Word) (answer : Option AnswerSlot) : State :=
  { s with line := { idleCount := 0, rx := rx, checkAcc := acc, answer := answer, overrun := false,
                     dominantLeft := if s.line.inFrame then s.line.dominantLeft else 0 } }

/-- A frame received cleanly (R99, R101): the reject count is set to 0, but stays at 16 while MUTED (R100, log entry 9);
the clean-frame count rises while MUTED, and moves in no other state (DESIGN CHOICE, log entry 25). -/
def State.countClean (s : State) : State :=
  if s.ctl.state = .muted then { s with ctl := { s.ctl with cleanCount := min Config.cleanLimit (s.ctl.cleanCount + 1) } }
  else { s with ctl := { s.ctl with rejectCount := 0 } }

/-- A frame with a format error or an overrun: if REJECT was driven on a frame followed to the end of CHECK the reject
count rises (R99); while MUTED the clean-frame count is set to 0 (R101), and in no other state does it move (DESIGN CHOICE, log
entry 25). -/
def State.countBad (s : State) (rejected : Bool) : State :=
  if s.ctl.state = .muted then { s with ctl := { s.ctl with cleanCount := 0 } }
  else if rejected then { s with ctl := { s.ctl with rejectCount := min Config.rejectLimit (s.ctl.rejectCount + 1) } }
  else s

/-- The receiver of a frame with a format error found at the end of CHECK (R64, R87, R88): not delivered; REJECT if the
state answers it. -/
def State.badFrame (s : State) (acc : Word) : State :=
  let rejects := s.ctl.state.rejects
  (({ s with cont := s.cont.loseArbitration } : State).frameEnds .empty acc (if rejects then some .reject else none)).countBad rejects

/-- A frame from x is heard (R41, R45): its countdown is renewed and it leaves the reap set. -/
def State.hear (s : State) (x : Station) : State := (s.setLease x s.leaseUs).dropReap x

/-- The raw frame of a heard frame: what the line carried (Table 3-2). -/
def heardRaw (k : FrameKind) (h : Head) (body : List Byte) : RawFrame :=
  ({ kind := k, cont := h.cont, seq := h.seq, body := body } : TxFrame).raw h.station

/-- A frame of a kind, not this station's own, ends its answer slots (R62, R92, R94, R97). In order: an offer in
arbitration has lost; the format checks against the local TABLE_SIZE; lease renewal and reap set; the clean count; and, with
REJECT recessive, the hold, the delivery to table engine or sync unit, and the own-number rule (R129). `answer` is the slot
this station drove. -/
def State.receive (s : State) (k : FrameKind) (h : Head) (body : List Byte) (a : Answers) (answer : Option AnswerSlot)
    (deliver : State → State) : State :=
  if !s.canHear then s
  else if !(lenGood k body.length && bodyGood s.tableSize k body) then s.badFrame (frameCheck (heardRaw k h body))
  else
    let before := s.ctl.state
    let t := { s with cont := s.cont.loseArbitration }
    let t := ((t.frameEnds (.held { fields := heardRaw k h body, answers := a, sent := false }) (frameCheck (heardRaw k h body)) answer).hear h.station).countClean
    if a.reject then t
    else
      let t := deliver (t.followHold h.station h.cont)
      if h.station = s.ctl.number ∧ before.ownNumberRule = true then t.expel .refused .clash 0#16 else t

/-- The answer an IN_STEP or LEAVING receiver drives to a state frame (R87, R89, R90). -/
def answerOf (applies agrees : Bool) : Option AnswerSlot :=
  if applies then some (if agrees then .agree else .disagree) else none

/-- The answer decision of a receiver on a state frame with REJECT recessive (R94, R97): apply, lose step or disregard; a
LISTENING or JOINING station records a state frame heard (R123). -/
def State.decideHeard (s : State) (h : Head) (a : Answers) (agrees : Bool) (b : StateBody) : State :=
  if s.ctl.state.applies then
    if agrees then s.applyFrame false none h.station b
    else if a.agree then s.loseStep (h.station == s.ctl.number)
    else s
  else if s.ctl.state = .listening ∨ s.ctl.state = .joining then { s with ctl := { s.ctl with heardState := true } }
  else s

/-- A state frame heard: answered on `agrees` and decided (R89, R90, R94). -/
def State.receiveState (s : State) (k : FrameKind) (h : Head) (body : List Byte) (a : Answers) (agrees : Bool) (b : StateBody) : State :=
  s.receive k h body a (answerOf s.ctl.state.applies agrees) fun t => t.decideHeard h a agrees b

/-! ### The station's own frame -/

/-- The data slots this station drives for an offer, CLASS to CHECK. -/
def State.offerSlots (s : State) (o : Offer) : List Bool := dataSlots (o.frame.raw s.ctl.number)

/-- The offer passes arbitration (R76): SENDING, its six slots read as they were driven, and a context frame's context follows
(R141). -/
def State.passArbitration (s : State) : State :=
  match s.cont.offer with
  | none => s
  | some o =>
    if o.phase = .arbitrating then
      let s := { s with cont := { s.cont with offer := some { o with phase := .sending } },
                        line := s.line.sampled ((s.offerSlots o).take 6) }
      match o.source with
      | .entry tag => { s with req := s.req.update tag Context.passed }
      | _ => s
    else s

/-- A failed attempt adds 1 to the frame's count (R83), which goes no higher than 16, the count at which the frame is
abandoned (R84). -/
def bump (n : Nat) : Nat := min Config.attemptLimit (n + 1)

/-- A failed attempt of the frame offered (R77, R78, R83): its count rises; the context of a context frame returns to
CONTENDING, or, if it is marked, completes with its cause and its entry is removed (R141, R147). -/
def State.failAttempt (s : State) (src : OfferSource) : State :=
  match src with
  | .entry tag =>
    if (s.req.find tag).any Context.markedSend then
      { s with req := s.req.completeCause tag 0#16 0#16, cont := s.cont.removeEntry tag }
    else
      { s with req := s.req.update tag Context.failed, cont := s.cont.updateEntry tag fun e => { e with attempts := bump e.attempts } }
  | .train => { s with cont := { s.cont with attempts := { s.cont.attempts with train := bump s.cont.attempts.train } } }
  | .syncReq => { s with cont := { s.cont with attempts := { s.cont.attempts with syncReq := bump s.cont.attempts.syncReq } } }
  | .join => { s with cont := { s.cont with attempts := { s.cont.attempts with join := bump s.cont.attempts.join } } }
  | .leave => { s with cont := { s.cont with attempts := { s.cont.attempts with leave := bump s.cont.attempts.leave } } }
  | .heartbeat => { s with cont := { s.cont with attempts := { s.cont.attempts with heartbeat := bump s.cont.attempts.heartbeat } } }
  | .reap _ => { s with cont := { s.cont with attempts := { s.cont.attempts with reap := bump s.cont.attempts.reap } } }

/-- The current offer is cleared (R78). -/
def State.clearOffer (s : State) : State := { s with cont := { s.cont with offer := none } }

/-- A completed frame leaves its source (R78): a context's entry is removed, a flag cleared, and the count restarts
(R83). Heartbeat due, train intent and the reap set follow their own rules. -/
def State.endSource (s : State) (src : OfferSource) : State :=
  match src with
  | .entry tag => { s with cont := s.cont.removeEntry tag }
  | .train => { s with cont := { s.cont with attempts := { s.cont.attempts with train := 0 } } }
  | .syncReq => { s with cont := { s.cont with syncReqPending := false, attempts := { s.cont.attempts with syncReq := 0 } } }
  | .join => { s with cont := { s.cont with joinPending := false, attempts := { s.cont.attempts with join := 0 } } }
  | .leave => { s with cont := { s.cont with leavePending := false, attempts := { s.cont.attempts with leave := 0 } } }
  | .heartbeat => { s with cont := { s.cont with attempts := { s.cont.attempts with heartbeat := 0 } } }
  | .reap _ => { s with cont := { s.cont with attempts := { s.cont.attempts with reap := 0, reapTarget := none } } }

/-- The station's own frame of a kind ends its answer slots (R78). It drove no answer (R87). With REJECT dominant the
attempt fails; otherwise the frame has completed: the hold follows CONT, the offer is cleared and `complete` acts on the
frame's source and content. Turn-used is set for a class 2 or 3 frame in either case (R79). With no such frame in the
transmit buffer there is nothing of this station's to end. -/
def State.ownFrameEnds (s : State) (k : FrameKind) (a : Answers) (complete : OfferSource → TxFrame → State → State) : State :=
  match s.cont.offer with
  | none => s
  | some o =>
    if o.frame.kind ≠ k then s
    else
      let t := s.passArbitration
      let t := t.frameEnds (.held { fields := o.frame.raw s.ctl.number, answers := a, sent := true }) (frameCheck (o.frame.raw s.ctl.number)) none
      let t := { t with cont := { t.cont with turnUsed := t.cont.turnUsed || decide (2 ≤ k.cls.toNat), offer := some { o with phase := .answering } } }
      if a.reject then (t.failAttempt o.source).clearOffer
      else complete o.source o.frame (t.followHold s.ctl.number o.frame.cont).clearOffer

/-- The stale sender (R95): its context returns to QUEUED_LOCAL, or stays WITHDRAWING, its entry in place with count 0; a
marked context completes with its cause and its entry is removed (R147); and the station loses step (R93). -/
def State.staleSend (s : State) (src : OfferSource) : State :=
  let s :=
    match src with
    | .entry tag =>
      if (s.req.find tag).any Context.markedSend then
        { s with req := s.req.completeCause tag 0#16 0#16, cont := s.cont.removeEntry tag }
      else { s with req := s.req.update tag Context.stale, cont := s.cont.updateEntry tag fun e => { e with attempts := 0 } }
    | src => s.endSource src
  s.loseStep false

/-- The tag of a context frame's source. -/
def OfferSource.tag : OfferSource → Option Byte
  | .entry tag => some tag
  | _ => none

/-- The sender's decision on its own completed state frame, other than JOIN (R95): stale on DISAGREE alone; otherwise, some
member agreeing or nobody answering, it applies its frame. A sender is IN_STEP or LEAVING (R70). -/
def State.decideOwn (s : State) (a : Answers) (src : OfferSource) (b : StateBody) : State :=
  if !s.ctl.state.applies then s.endSource src
  else if !a.agree && a.disagree then s.staleSend src
  else (s.endSource src).applyFrame true src.tag s.ctl.number b

/-! ### The idle count -/

/-- A frame is in progress: the idle count is held at zero (R52). -/
def State.frameInProgress (s : State) : Bool := s.cont.offer.isSome || s.line.inFrame

/-- The line is idle: no frame is in progress, and no fault holds it dominant (R52). -/
def State.lineIdle (s : State) : Bool := !s.frameInProgress && s.line.dominantLeft == 0

/-- The idle count has risen to n: on the way past ROUND_GAP the round ended (R52, R79). -/
def State.idleTo (s : State) (n : Nat) : State :=
  { s with line := s.line.idleAt (max s.line.idleCount n),
           cont := { s.cont with turnUsed := s.cont.turnUsed && !(decide (s.line.idleCount < Config.roundGap) && decide (Config.roundGap ≤ n)) } }

end Sys2Proof.Machine
end

