-- ==== Sys2Proof/Machine/Events.lean ====
section
/-! DEFINITION. Line events that deliver no frame, the idle count's events, the timers' events and the counters' events (ch. 2
to ch. 8). An event of time stands for the time it needs (log entry 3). -/

namespace Sys2Proof.Machine

/-! ### Frames that are not received -/

/-- FORMAT_ERROR (R64, R87, R88, R99): the frame fails a check of Table 3-8 at this station. A frame that passes them all is no
format error here, and nothing happens. -/
def execFormatError (frame : RawFrame) (s : State) : Host.Outcome State Fault Refusal :=
  .next (if !s.canHear || frameGood s.tableSize frame then s else s.badFrame (frameCheck frame))

/-- TRUNCATION (R63): the data slots before the one that lacked its mark have come; the next slot is the only answer slot;
REJECT if the state answers it. The reject count does not change (R99); while MUTED the clean-frame count is set to 0 (R101).
With the last CHECK slot come no data slot lacked its mark: a mark missing from an answer slot truncates nothing (R53).
An overrun frame that is truncated is answered as a truncation, in OUT_OF_STEP and SYNCING too (DESIGN CHOICE, log entry 23:
R88 has those states answer a truncation and not answer an overrun frame). -/
def execTruncation (bits : List Bool) (s : State) : Host.Outcome State Fault Refusal :=
  .next
    (if !s.active || s.sendingOwn || lastCheckCame bits then s
    else
      ((({ s with cont := s.cont.loseArbitration } : State).frameEnds .empty (slotsCheck bits)
        (if s.ctl.state.rejects then some .reject else none)).countBad false))

/-- RECEIVE_OVERRUN (R65, R88): a start mark while the receive buffer is HELD; the new frame is not stored, and the held one's
delivery is completed. REJECT only in IN_STEP and LEAVING. With the buffer not HELD there is no overrun. -/
def execReceiveOverrun (frame : RawFrame) (s : State) : Host.Outcome State Fault Refusal :=
  .next
    (if s.active && s.line.rx.isHeld then
      let rejects := s.ctl.state.applies
      (s.frameEnds .empty (frameCheck frame) (if rejects then some .reject else none)).countBad rejects
    else s)

/-- Whole slots from an edge after which the line stays dominant to the end of the frame it is part of: the data slot of the edge, the
slot that lacks its mark, and the REJECT slot (R63); from an edge in the REJECT slot of a whole frame, the three answer slots. -/
def cutSlots : Nat := 3

/-- The start mark is three slots long, and the first data slot follows it without an edge (R51). -/
def markSlots : Nat := 3

/-- GLITCH (R51, R52): a falling edge, with the line dominant for some whole slots. Outside a frame, under two no frame begins, and
the idle count restarts from the rising edge. From two on it is a start mark, of a frame to be received (R62), or of an overrun when
the buffer is HELD (R65), and either presets the check accumulator (R56). Within a frame the transceiver looks for no start mark
(R51), and OFFLINE it samples nothing (R54). What is left of the dominant period when the frame it opens or cuts has ended is a
fault's, and keeps the idle count at zero until the release (R52, log entry 24). -/
def execGlitch (s : State) (slots : Nat := 0) : Host.Outcome State Fault Refusal :=
  .next
    (if !s.active then { s with line := { s.line with dominantLeft := slots } }
    else if s.frameInProgress then { s with line := { s.line with dominantLeft := slots - cutSlots } }
    else if slots < 2 then { s with line := { s.line with idleCount := 0, dominantLeft := 0 } }
    else { s with line := { (if s.line.rx.isHeld then s.line.overrunMark else s.line.startMark) with dominantLeft := slots - (markSlots + cutSlots) } })

/-! ### Idle count events -/

/-- ROUND_END (R79): the idle count reaches ROUND_GAP; turn-used is cleared, whatever it was. While a frame is in progress or the line
is held dominant the count stays at zero (R52). -/
def execRoundEnd (s : State) : Host.Outcome State Fault Refusal :=
  .next
    (if s.active && s.lineIdle then
      { s with line := s.line.idleAt (max s.line.idleCount Config.roundGap), cont := { s.cont with turnUsed := false } }
    else s)

/-- HOLD_TIMEOUT (R82): the idle count reaches HOLD_TIMEOUT under a hold, which ends abandoned; silent is cleared. On its way
the count passed ROUND_GAP (R79). No hold times out while the line is held dominant (R52). -/
def execHoldTimeout (s : State) : Host.Outcome State Fault Refusal :=
  .next
    (match s.cont.hold with
    | some h => if s.active && s.lineIdle then (s.idleTo Config.holdTimeout).abandonHold h else s
    | none => s)

/-! ### Timer events -/

/-- LEASE_EXPIRED (R42, R44): the running countdown stops at zero and the station joins the reap set. -/
def execLeaseExpired (station : Station) (s : State) : Host.Outcome State Fault Refusal :=
  .next
    (if s.leaseRunning station then
      { s with lease := { s.lease with remaining := s.lease.remaining.set station 0, reapSet := s.lease.reapSet.addStation station } }
    else s)

/-- HEARTBEAT_DUE (R47): the running timer stops and heartbeat due is set, a new frame with a new count unless it was set
already (R83). -/
def execHeartbeatDue (s : State) : Host.Outcome State Fault Refusal :=
  .next
    (match s.lease.heartbeat with
    | .running _ =>
      { s with lease := { s.lease with heartbeat := .stopped },
               cont := { s.cont with heartbeatDue := true, attempts := if s.cont.heartbeatDue then s.cont.attempts else { s.cont.attempts with heartbeat := 0 } } }
    | .stopped => s)

/-- RETRY_TIMER_EXPIRY (R105): the running timer stops and SYNC_REQ pending is set. -/
def execRetryTimerExpiry (s : State) : Host.Outcome State Fault Refusal :=
  .next
    (match s.sync.retry with
    | .running _ => { s with sync := { s.sync with retry := .stopped }, cont := { s.cont with syncReqPending := true } }
    | .stopped => s)

/-- JOIN_WAIT_ELAPSED (R123): the timer stops, the station moves to JOINING with JOIN pending, a new JOIN with a new count
(R83); the reject count is set to 0 (R99). -/
def execJoinWaitElapsed (s : State) : Host.Outcome State Fault Refusal :=
  .next
    (match s.ctl.joinWait, s.ctl.state with
    | .running _, .listening =>
      { s with ctl := { s.ctl with joinWait := .stopped, state := .joining, rejectCount := 0 },
               cont := { s.cont with joinPending := true, attempts := { s.cont.attempts with join := 0 } } }
    | _, _ => s)

/-- The wait timer runs. -/
def Timer.isRunning : Timer → Bool
  | .running _ => true
  | .stopped => false

/-- WAIT_TIMER_EXPIRY (R144): the running wait timer of the context with the tag stops, TIMED_OUT is recorded, and Table 8-6
applies. -/
def execWaitTimerExpiry (tag : Byte) (s : State) : Host.Outcome State Fault Refusal :=
  .next (if (s.req.find tag).any fun c => c.isOpen && c.waitTimer.isRunning then s.endByCause tag .timedOut else s)

/-! ### Counter events -/

/-- ENTER_MUTED (R100): the consecutive-reject count has reached 16 in a state that answers REJECT. From IN_STEP or LEAVING the
replica becomes invalid and the member state is cleared; from OUT_OF_STEP or SYNCING SYNC_REQ pending is cleared, the retry
timer stops (R105) and a shadow is discarded (R117). -/
def execEnterMuted (s : State) : Host.Outcome State Fault Refusal :=
  .next
    (if s.ctl.state.rejects && decide (Config.rejectLimit ≤ s.ctl.rejectCount) then
      let t := if s.ctl.state.applies then s.leaveMember else s
      ({ t with replica := { t.replica with valid := false }, ctl := { t.ctl with state := .muted, cleanCount := 0 },
                cont := t.cont.clearSyncReq, sync := { t.sync with retry := .stopped, shadow := none } } : State).raise .muted
    else s)

/-- RECOVERY (R102): the clean-frame count has reached 64 while MUTED; the station moves to OUT_OF_STEP and asks for a
snapshot (R104). No event flag. The clean-frame count is left where it stands, until MUTED is entered again (DESIGN CHOICE, log entry
25). -/
def execRecovery (s : State) : Host.Outcome State Fault Refusal :=
  .next
    (if s.ctl.state = .muted ∧ Config.cleanLimit ≤ s.ctl.cleanCount then
      { s with ctl := { s.ctl with state := .outOfStep, rejectCount := 0 }, cont := { s.cont with syncReqPending := true } }
    else s)

end Sys2Proof.Machine
end

