-- ==== Sys2Proof/Machine/Port.lean ====
section
/-! DEFINITION. The port family: hardware reset, the reads, TAKE, and the write transactions (ch. 8, ch. 9). Each transaction is
one command, taken whole; the events it may fall together with stand before or behind it in the queue (R162). -/

namespace Sys2Proof.Machine

/-! ### Hardware reset -/

/-- HARDWARE_RESET (R122, R166): every block at its reset values, the station number from the straps, ST0 least significant.
The model's counter of nonces drawn goes on, so that a nonce drawn later is a fresh free value (log entry 5), and
the level of the claim line is not the part's to reset (log entry 24). -/
def execHardwareReset (straps : BitVec 4) (s : State) : Host.Outcome State Fault Refusal :=
  .next { State.reset with ctl := { StationController.reset (stationOf straps) with nonceDraws := s.ctl.nonceDraws }, line := s.line.restarted,
                           pending := s.pending }

/-! ### Reads -/

/-- One context slot pair of READ_STATUS (R168). -/
def Context.slotBytes (c : Context) : List Byte := [c.state.code ||| (if c.marked then 0x08#8 else 0#8), c.tag]

/-- The 30 bytes of READ_STATUS (Table 9-4). -/
def State.statusBytes (s : State) : List Byte :=
  [s.ctl.state.code, BitVec.ofNat 8 s.ctl.number.val] ++ wordBytes s.replica.sequence ++ wordBytes s.port.digest ++
    [BitVec.ofNat 8 s.req.contexts.length, BitVec.ofNat 8 s.req.queue.length] ++ wordBytes s.port.flags ++ wordBytes s.port.masks ++
    [(if s.summary then 0x80#8 else 0#8) ||| bitByte s.port.notice, BitVec.ofNat 8 s.ctl.rejectCount] ++
    (s.req.contexts.flatMap Context.slotBytes ++ List.replicate 16 0#8).take 16

/-- READ_STATUS (R168). -/
def execReadStatus (s : State) (spi : Spi := .whole) : Host.Outcome State Fault Refusal :=
  .next (s.transact spi fun after => s.shiftOut 0 after s.statusBytes s)

/-- The entry a READ_ENTRY of an index returns: the replica's below TABLE_SIZE, else the empty form (R28, R169). -/
def State.readableEntry (s : State) (index : Byte) : Entry :=
  if index.toNat < s.tableSize then s.replica.entry index.toNat else Entry.empty

/-- The 40 bytes of READ_ENTRY (Table 9-5). VALID in IN_STEP and LEAVING for an index below TABLE_SIZE; OUT_OF_RANGE at or
above TABLE_SIZE (R169). -/
def State.entryBytes (s : State) (index : Byte) : List Byte :=
  let inRange := decide (index.toNat < s.tableSize)
  let e := s.readableEntry index
  [bitByte (inRange && s.ctl.state.applies) ||| (if inRange then 0#8 else 0x02#8)] ++
    (e.claimState.recordBytes index ++ List.replicate 36 0#8).take 36 ++ wordBytes e.permit ++ [bitByte e.sharedOk]

/-- READ_ENTRY (R169). -/
def execReadEntry (index : Byte) (s : State) (spi : Spi := .whole) : Host.Outcome State Fault Refusal :=
  .next (s.transact spi fun after => s.shiftOut 1 after (s.entryBytes index) s)

/-- The 7 bytes of READ_ROSTER (Table 9-6). -/
def State.rosterReadBytes (s : State) : List Byte :=
  [bitByte s.ctl.state.applies] ++ rosterBytes s.replica.roster ++ wordBytes s.replica.sequence

/-- READ_ROSTER (R170). -/
def execReadRoster (s : State) (spi : Spi := .whole) : Host.Outcome State Fault Refusal :=
  .next (s.transact spi fun after => s.shiftOut 0 after s.rosterReadBytes s)

/-- The presence byte and the record, or the empty indication (R157). -/
def takeBytes (r : Option CompletionRecord) : List Byte :=
  match r with
  | some r => 1#8 :: r.bytes
  | none => List.replicate 9 0#8

/-- TAKE (R157): the head record is captured and shifted out; the record stays until TAKE_RECORD_REMOVAL, and, if fewer than all
nine bytes were clocked out, beyond it. -/
def execTake (s : State) (spi : Spi := .whole) : Host.Outcome State Fault Refusal :=
  .next (s.transact spi fun after =>
    let t := s.shiftOut 0 after (takeBytes s.req.queue.head?) s
    { t with port := { t.port with capture := if 9 ≤ after then s.req.queue.head? else none } })

/-- TAKE_RECORD_REMOVAL (R157): CSn rises after the last byte of a TAKE that captured a record; the record leaves the queue and
its context is freed. After a TAKE of an empty queue nothing changes. -/
def execTakeRecordRemoval (s : State) : Host.Outcome State Fault Refusal :=
  .next
    (match s.port.capture with
    | some r => { s with req := s.req.take r.tag, port := { s.port with capture := none } }
    | none => s)

/-! ### SUBMIT and CANCEL -/

/-- The first check of Table 8-2 that a record fails, in order (R138). -/
def State.submitStatus (s : State) (r : RequestRecord) : PortStatus :=
  if !s.ctl.state.member then .notMember
  else if (requestKind r.kind).isNone || (requestKind r.kind == some .claim && (requestMode r.mode).isNone) then .badRequest
  else if s.tableSize ≤ r.resource.toNat then .badResource
  else if (s.req.find r.tag).isSome then .tagInUse
  else if s.req.full then .noContext
  else .accepted

/-- The context an accepted record opens (R137, R139, R144): MODE for a CLAIM only. -/
def contextOf (r : RequestRecord) (k : RequestKind) : Context :=
  { tag := r.tag, kind := k, mode := if k = .claim then requestMode r.mode else none, resource := r.resource,
    waitLimit := r.waitLimit, state := .queuedLocal, cause := .none, withdrawPhase := .none, waitTimer := waitTimerOf r.waitLimit }

/-- The send-list entry of an accepted record (R68, R139), for a CLAIM with its mode and may-wait, yes when WAIT_LIMIT is not
0 (R137). -/
def sendEntryOf (r : RequestRecord) (k : RequestKind) : SendEntry :=
  { kind := k.sendKind, tag := r.tag, resource := r.resource,
    mode := if k = .claim then (requestMode r.mode).getD .excl else .excl,
    mayWait := k == .claim && r.waitLimit != 0#16, attempts := 0, carried := false }

/-- Acceptance (R139). -/
def State.accept (s : State) (r : RequestRecord) (k : RequestKind) : State :=
  { s with req := { s.req with contexts := s.req.contexts ++ [contextOf r k] }, cont := s.cont.addEntry (sendEntryOf r k) }

/-- SUBMIT (R138, R139). -/
def execSubmit (record : RequestRecord) (s : State) (spi : Spi := .whole) : Host.Outcome State Fault Refusal :=
  .next (s.transact spi fun after =>
    let st := s.submitStatus record
    s.answerStatus 8 after st
      (match st, requestKind record.kind with
      | .accepted, some k => s.accept record k
      | _, _ => s))

/-- CANCEL is taken for a context in this state (R146). -/
def Context.cancellable (c : Context) : Bool :=
  match c.state with
  | .queuedLocal | .contending | .waiting => true
  | .transmitting => c.kind == .claim
  | .withdrawing | .done => false

/-- CANCEL (R146). -/
def execCancel (tag : Byte) (s : State) (spi : Spi := .whole) : Host.Outcome State Fault Refusal :=
  .next (s.transact spi fun after =>
    if (s.req.find tag).any Context.cancellable then s.answerStatus 1 after .accepted (s.endByCause tag .cancelled)
    else s.answerStatus 1 after .notPending s)

/-! ### Flags, masks, configuration -/

/-- CLEAR_FLAGS (R171). -/
def execClearFlags (mask : Word) (s : State) (spi : Spi := .whole) : Host.Outcome State Fault Refusal :=
  .next (s.transact spi fun after => s.answerStatus 2 after .accepted { s with port := { s.port with flags := s.port.flags &&& ~~~mask } })

/-- WRITE_MASKS (R172): notice enable from bit 0 of the notice byte. -/
def execWriteMasks (masks : Word) (notice : Byte) (s : State) (spi : Spi := .whole) : Host.Outcome State Fault Refusal :=
  .next (s.transact spi fun after => s.answerStatus 3 after .accepted { s with port := { s.port with masks := masks, notice := notice.getLsbD 0 } })

/-- The block with data bytes written from an offset. -/
def PortUnit.writeBlock (p : PortUnit) (offset : Nat) (data : List Byte) : PortUnit :=
  { p with config := Vector.ofFn fun i : Fin 195 =>
      if offset ≤ i.val then (data[i.val - offset]?).getD p.config[i] else p.config[i] }

/-- WRITE_CONFIG (R163): in OFFLINE, count at least 1 and offset + count at most 195. With fewer data bytes than the count the
transaction was cut short and writes nothing (R160); bytes beyond the count are not examined (R159). -/
def execWriteConfig (offset : Byte) (count : Byte) (data : List Byte) (s : State) (spi : Spi := .whole) : Host.Outcome State Fault Refusal :=
  .next (s.transact spi fun after =>
    if data.length < count.toNat then s.shiftOut (2 + data.length) 0 [] s
    else if s.ctl.state ≠ .offline then s.answerStatus (2 + count.toNat) after .wrongState s
    else if count = 0#8 ∨ 195 < offset.toNat + count.toNat then s.answerStatus (2 + count.toNat) after .badOffset s
    else s.answerStatus (2 + count.toNat) after .accepted { s with port := s.port.writeBlock offset.toNat (data.take count.toNat) })

/-! ### Station control -/

/-- START (R164): in OFFLINE, a good block is locked, the digest computed, and the station enters LISTENING with the line
transceiver counting idle slots from zero (R54). -/
def execStart (s : State) (spi : Spi := .whole) : Host.Outcome State Fault Refusal :=
  .next (s.transact spi fun after =>
    if s.ctl.state ≠ .offline then s.answerStatus 0 after .wrongState s
    else if !s.port.configGood then s.answerStatus 0 after .badConfig s
    else s.answerStatus 0 after .accepted
      ({ s with port := { s.port with locked := true, digest := s.port.computeDigest }, line := s.line.restarted } : State).enterListening)

/-- The context with a tag is QUEUED_LOCAL or CONTENDING. -/
def RequestUnit.unsent (r : RequestUnit) (tag : Byte) : Bool :=
  r.contexts.any fun c => c.tag == tag && (c.state == .queuedLocal || c.state == .contending)

/-- The entry whose frame is past arbitration is a carried frame from now on (R71). -/
def ContentionUnit.markCarried (c : ContentionUnit) : ContentionUnit :=
  { c with sendList := c.sendList.map fun e =>
      { e with carried := c.offer.any fun o => o.phase != .arbitrating && o.source == .entry e.tag } }

/-- Entry into LEAVING (R132, R152): the effects of leaving IN_STEP, LEAVE pending, and QUEUED_LOCAL and CONTENDING contexts
completed ABANDONED with their entries removed. -/
def State.enterLeaving (s : State) : State :=
  let t := s.leaveMember
  { t with ctl := { t.ctl with state := .leaving },
           cont := { (t.cont.removeEntries s.req.unsent).markCarried with leavePending := true },
           req := t.req.abandonUnsent }

/-- Port LEAVE (R132, R167). -/
def execPortLeave (s : State) (spi : Spi := .whole) : Host.Outcome State Fault Refusal :=
  .next (s.transact spi fun after =>
    if s.ctl.state = .inStep then s.answerStatus 0 after .accepted s.enterLeaving else s.answerStatus 0 after .wrongState s)

/-- REJOIN (R135, R167). -/
def execRejoin (s : State) (spi : Spi := .whole) : Host.Outcome State Fault Refusal :=
  .next (s.transact spi fun after =>
    if s.ctl.state.ended then s.answerStatus 0 after .accepted s.enterListening else s.answerStatus 0 after .wrongState s)

/-- Every block at its values after RESTART (R136): configuration, lock, digest, masks, notice enable and station number are
kept; a frame or answer being driven is cut off. -/
def State.restarted (s : State) : State :=
  { s with port := { s.port with flags := 0#16 }, line := s.line.restarted, cont := .reset, replica := .empty, lease := .reset,
           sync := .reset, req := .reset,
           ctl := { s.ctl with state := .listening, joinWait := .running (s.leaseUs / 2), heardState := false, rejectCount := 0, cleanCount := 0 } }

/-- RESTART (R136, R167): in every state after START. -/
def execRestart (s : State) (spi : Spi := .whole) : Host.Outcome State Fault Refusal :=
  .next (s.transact spi fun after =>
    if s.ctl.state = .offline then s.answerStatus 0 after .wrongState s else s.answerStatus 0 after .accepted s.restarted)

/-! ### Transactions that are not taken -/

/-- UNKNOWN_TRANSACTION_CODE (R159): FFh for every byte after the header byte; no state of the part changes. A code of Table
9-1 is not one. -/
def execUnknownTransactionCode (code : Byte) (spi : Spi) (s : State) : Host.Outcome State Fault Refusal :=
  .next (if knownCode code then s else s.transact spi fun after => s.shiftOut 0 after (List.replicate after 0xFF#8) s)

/-- TRANSACTION_CUT_SHORT (R160): the input is discarded without effect; the port has shifted out the header byte and 00h for
the whole bytes that came after the code, and no whole byte when the code byte itself was not whole. -/
def execTransactionCutShort (bytes : List Byte) (s : State) (spi : Spi := .whole) : Host.Outcome State Fault Refusal :=
  .next
    (if cutShort bytes then
      s.transact spi fun _ =>
        match bytes with
        | [] => { s with port := { s.port with selected := none, sdo := [], capture := none } }
        | _ :: rest => s.shiftOut rest.length 0 [] s
    else s)

end Sys2Proof.Machine
end

