-- ==== Sys2Proof/Machine/Contend.lean ====
section
/-! DEFINITION. The contention family: choosing and offering a frame, arbitration, bit errors, abandonment (ch. 4). -/

namespace Sys2Proof.Machine

/-! ### The frame to offer (R70, R71, Table 4-2, Table 4-3) -/

/-- A frame without a body, other than a state frame with SEQ: SEQ all ones, CONT 0 (R55). -/
def TxFrame.service (k : FrameKind) (cont : Bool) (body : List Byte) : TxFrame :=
  { kind := k, cont := cont, seq := 0xFFFF#16, body := body }

/-- A state frame other than JOIN: SEQ is the table sequence at the start mark (R26). -/
def State.stateFrame (s : State) (k : FrameKind) (body : List Byte) : TxFrame :=
  { kind := k, cont := false, seq := s.replica.sequence, body := body }

/-- The head body built from the replica and configuration as they stand (R109). -/
def State.headFields (s : State) : HeadFields :=
  { digest := s.port.digest, trainSequence := s.replica.sequence, roster := s.replica.roster, tableSize := s.tableSize, poolInUse := s.replica.poolInUse }

/-- Whole records while the body stays within the room left (R110). -/
def packRecords : Nat → List (List Byte) → List (List Byte)
  | _, [] => []
  | room, r :: rs => if r.length ≤ room then r :: packRecords (room - r.length) rs else []

/-- The entry record of an index in the replica. -/
def State.recordAt (s : State) (i : Nat) : List Byte := (s.replica.entry i).claimState.recordBytes (BitVec.ofNat 8 i)

/-- The SNAP_ENTRY body from the send cursor (R110). -/
def State.entriesBody (s : State) : List Byte :=
  (packRecords 40 ((List.range (s.tableSize - s.sync.cursor)).map fun i => s.recordAt (s.sync.cursor + i))).flatten

/-- The next frame of this station's train (R108, R109, R110). -/
def State.trainFrame (s : State) : Option TxFrame :=
  match s.sync.phase with
  | .none => none
  | .head => if s.cont.trainIntent then some (.service .snapHead true s.headFields.bytes) else none
  | .entries => some (.service .snapEntry true s.entriesBody)
  | .tail => some (.service .snapTail false (wordBytes s.sync.sendCheck))

/-- The frame of a send-list entry (Table 8-5, R58). -/
def State.entryFrame (s : State) (e : SendEntry) : TxFrame :=
  match e.kind with
  | .claim => s.stateFrame .claim [e.resource, modeByte e.mode e.mayWait, e.tag]
  | .release => s.stateFrame .release [e.resource]
  | .downgrade => s.stateFrame .downgrade [e.resource]
  | .withdraw => s.stateFrame .withdraw [e.resource]

/-- The JOIN body: digest and nonce (R59, R124). -/
def State.joinFrame (s : State) : TxFrame :=
  .service .join false (wordBytes s.port.digest ++ wordBytes (Config.nonce s.ctl.nonceDraws))

/-- A count below 16 allows another attempt (R84). -/
def mayTry (attempts : Nat) : Bool := decide (attempts < Config.attemptLimit)

/-- The count a REAP of a target goes by: a new target's starts at 0 (R83). -/
def AttemptCounts.reapFor (a : AttemptCounts) (t : Station) : Nat := if a.reapTarget = some t then a.reap else 0

/-- Class 0: the next frame of this station's train; else SYNC_REQ (Table 4-3). -/
def State.offerClass0 (s : State) : Option (OfferSource × TxFrame) :=
  if s.ctl.state = .inStep then
    if mayTry s.cont.attempts.train then s.trainFrame.map fun f => (.train, f) else none
  else if s.ctl.state.requesting && s.cont.syncReqPending && mayTry s.cont.attempts.syncReq then
    some (.syncReq, .service .syncReq false [])
  else none

/-- A carried frame remains in the send list (R71). -/
def State.carriedLeft (s : State) : Bool := s.cont.sendList.any fun e => e.carried

/-- Class 1: JOIN or LEAVE, else REAP for the lowest number in the reap set, else HEARTBEAT (Table 4-3). -/
def State.offerClass1 (s : State) : Option (OfferSource × TxFrame) :=
  if s.ctl.state = .joining then
    if s.cont.joinPending && mayTry s.cont.attempts.join then some (.join, s.joinFrame) else none
  else if s.ctl.state = .leaving then
    if s.cont.leavePending && !s.carriedLeft && mayTry s.cont.attempts.leave then some (.leave, s.stateFrame .leave []) else none
  else if s.ctl.state = .inStep then
    match s.lease.reapSet.lowest with
    | some t => if mayTry (s.cont.attempts.reapFor t) then some (.reap t, s.stateFrame .reap [BitVec.ofNat 8 t.val]) else none
    | none => if s.cont.heartbeatDue && mayTry s.cont.attempts.heartbeat then some (.heartbeat, s.stateFrame .heartbeat []) else none
  else none

/-- The station state allows a send-list entry: all in IN_STEP, carried frames in LEAVING (Table 4-2, R71). -/
def State.allowsEntry (s : State) (e : SendEntry) : Bool :=
  (s.ctl.state == .inStep || (s.ctl.state == .leaving && e.carried)) && mayTry e.attempts

/-- Class 2 or 3: the allowed entry of that class nearest the head; none while turn-used is set (R71, R79). -/
def State.offerEntry (s : State) (cls : BitVec 2) : Option (OfferSource × TxFrame) :=
  if s.cont.turnUsed then none
  else (s.cont.sendList.find? fun e => e.kind.frameKind.cls == cls && s.allowsEntry e).map fun e => (.entry e.tag, s.entryFrame e)

/-- The frame of the most urgent class that has one ready (R71). While the station's own hold is in force, the next frame of
its train and nothing else (R81). -/
def State.chooseOffer (s : State) : Option (OfferSource × TxFrame) :=
  if s.cont.hold = some s.ctl.number then (if s.serving && s.ctl.state == .inStep then s.offerClass0 else none)
  else s.offerClass0 <|> s.offerClass1 <|> s.offerEntry 2 <|> s.offerEntry 3

/-- The start mark of a frame begins (R72): the current offer is ARBITRATING, and the mark is one on this station's own line
(R62); a context frame's context is CONTENDING (R141); a REAP for a new target starts a new count (R83); a
JOIN has drawn its nonce (R124). -/
def State.beginOffer (s : State) (src : OfferSource) (f : TxFrame) : State :=
  let t := { s with cont := { s.cont with offer := some { source := src, frame := f, phase := .arbitrating } },
                    line := s.line.startMark }
  match src with
  | .entry tag => { t with req := t.req.update tag Context.offered }
  | .reap target => { t with cont := { t.cont with attempts := { t.cont.attempts with reap := t.cont.attempts.reapFor target, reapTarget := some target } } }
  | .join => { t with ctl := { t.ctl with nonceDraws := t.ctl.nonceDraws + 1 } }
  | .train | .syncReq | .leave | .heartbeat => t

/-- OFFER (R72): at a boundary with the idle count at START_GAP or more, no frame in progress, no hold by
another station and not silent, the chosen frame is begun; with none ready nothing happens. -/
def execOffer (s : State) : Host.Outcome State Fault Refusal :=
  .next
    (if s.active && !s.frameInProgress && decide (Config.startGap ≤ s.line.idleCount) && s.freeOfOtherHold s.ctl.number && !s.cont.silent then
      match s.chooseOffer with
      | some (src, f) => s.beginOffer src f
      | none => s
    else s)

/-! ### Arbitration and bit errors -/

/-- ARBITRATION_LOST (R66, R73): in a slot of the arbitration field the offer drove recessive and read dominant. It stops driving;
the slots sampled so far stay in the receive buffer, and no count, no flag and no context changes. A slot in which the offer drove
dominant is no loss. -/
def execArbitrationLost (s : State) (slot : Nat := 0) : Host.Outcome State Fault Refusal :=
  .next
    (match s.cont.offer with
    | none => s
    | some o =>
      if o.phase = .arbitrating ∧ slot < 6 ∧ (s.offerSlots o)[slot]? = some true then
        { s with cont := s.cont.loseArbitration, line := s.line.sampled ((s.offerSlots o).take slot ++ [false]) }
      else s)

/-- ARBITRATION_PASSED (R76). -/
def execArbitrationPassed (s : State) : Host.Outcome State Fault Refusal := .next s.passArbitration

/-- BIT_ERROR (R66, R77): in a data slot past the arbitration field the sender drove recessive and read dominant. It stops driving,
the truncated frame is delivered to nobody, and the attempt has failed; in the station's own JOIN it is a number clash (R128). The
check accumulator has taken the slots before the error. The frame has ended for this station, REJECT slot and all, and the idle count
starts; where another card's frame with the same arbitration field goes on (R74), the station does not follow the rest of it as a
receiver (DESIGN CHOICE, log entry 26). A slot in which it drove dominant is no bit error, and the frame runs on (R63); past the last
CHECK slot there is none. -/
def execBitError (slot : Nat) (s : State) : Host.Outcome State Fault Refusal :=
  .next
    (match s.cont.offer with
    | none => s
    | some o =>
      if 6 ≤ slot ∧ (s.offerSlots o)[slot]? = some true then
        let t := ((s.passArbitration.frameEnds .empty (slotsCheck ((s.offerSlots o).take slot)) none).failAttempt o.source).clearOffer
        if o.source = .join then t.expel .refused .clash 0#16 else t
      else s)

/-! ### Abandonment (R84, R85) -/

/-- The frame whose attempt count has reached 16. -/
def State.abandonDue (s : State) : Option OfferSource :=
  let a := s.cont.attempts
  let at16 := fun n => decide (Config.attemptLimit ≤ n)
  if at16 a.train then some .train
  else if at16 a.syncReq then some .syncReq
  else if at16 a.join then some .join
  else if at16 a.leave then some .leave
  else if at16 a.heartbeat then some .heartbeat
  else
    match a.reapTarget, at16 a.reap with
    | some t, true => some (.reap t)
    | _, _ => (s.cont.sendList.find? fun e => at16 e.attempts).map fun e => .entry e.tag

/-- What the owner of an abandoned frame does (Table 4-6). -/
def State.abandonSource (s : State) (src : OfferSource) : State :=
  match src with
  | .entry tag =>
    { s with req := s.req.completeTag tag (.plain .mediumFault), cont := s.cont.removeEntry tag }
  | .heartbeat =>
    { s with cont := { s.cont with heartbeatDue := false, attempts := { s.cont.attempts with heartbeat := 0 } },
             lease := { s.lease with heartbeat := if s.ctl.state = .inStep then .running (s.leaseUs / 4) else s.lease.heartbeat } }
  | .reap _ => { s with cont := { s.cont with attempts := { s.cont.attempts with reap := 0, reapTarget := none } } }
  | .join =>
    if s.ctl.state = .joining then s.enterListening
    else { s with cont := { s.cont with joinPending := false, attempts := { s.cont.attempts with join := 0 } } }
  | .leave =>
    if s.ctl.state = .leaving then s.depart 0#16
    else { s with cont := { s.cont with leavePending := false, attempts := { s.cont.attempts with leave := 0 } } }
  | .syncReq =>
    { s with cont := { s.cont with syncReqPending := false, attempts := { s.cont.attempts with syncReq := 0 } },
             sync := { s.sync with retry := .running (s.leaseUs / 2) } }
  | .train =>
    if s.serving then ({ s with cont := { s.cont with silent := s.cont.hold.isSome } } : State).endTrain
    else { s with cont := s.cont.clearTrainIntent, sync := { s.sync with phase := .none } }

/-- ABANDON (R84): MEDIUM_FAULT, and the owner acts. -/
def execAbandon (s : State) : Host.Outcome State Fault Refusal :=
  .next
    (match s.abandonDue with
    | some src => (s.abandonSource src).raise .mediumFault
    | none => s)

end Sys2Proof.Machine
end

