-- ==== Sys2Proof/Machine/StateFrames.lean ====
section
/-! DEFINITION. The eight state frames: JOIN, LEAVE, HEARTBEAT, REAP, CLAIM, RELEASE, WITHDRAW, DOWNGRADE. One command is one
frame that ends its answer slots, heard or the station's own (ch. 1, ch. 2, ch. 5). -/

namespace Sys2Proof.Machine

/-- A state frame other than JOIN: a frame heard is answered by comparing SEQ with the table sequence (R89) and decided
(R94); the station's own is decided from the answers (R95). `tx` reads the body of the own frame. -/
def State.stateFrameEnds {β : Type} (s : State) (k : FrameKind) (origin : Origin β) (a : Answers) (bytes : β → List Byte)
    (body : β → StateBody) (tx : List Byte → StateBody) : State :=
  match origin with
  | .own => s.ownFrameEnds k a fun src f t => t.decideOwn a src (tx f.body)
  | .heard h b => s.receiveState k h (bytes b) a (h.seq == s.replica.sequence) (body b)

/-- The byte at a place of an own frame's body; 00h past its end, where no own frame of the kind is read. -/
def bodyByte (body : List Byte) (i : Nat) : Byte := body[i]?.getD 0#8

/-! ### JOIN -/

/-- The joiner's reading of its JOIN and what the station controller does with it (Table 5-3, R125, R126, R127). -/
def State.readJoin (s : State) (a : Answers) : State :=
  if s.ctl.state ≠ .joining then s
  else if a.disagree then s.expel .refused .refused 0#16
  else if a.agree then
    { s with ctl := { s.ctl with state := .syncing }, cont := { s.cont with syncReqPending := true } }
  else if s.ctl.heardState then s.enterListening
  else
    ({ s with replica := s.port.founded s.ctl.number, ctl := { s.ctl with state := .inStep },
              lease := { s.lease with heartbeat := .running (s.leaseUs / 4) },
              cont := { s.cont with heartbeatDue := false, attempts := { s.cont.attempts with heartbeat := 0 } } } : State).raise .founded

/-- JOIN (R32 to R35, R90, R94, R96): a member answers on the digest; the joiner reads the answers. -/
def execJoin (origin : Origin JoinBody) (answers : Answers) (s : State) : Host.Outcome State Fault Refusal :=
  .next
    (match origin with
    | .own => s.ownFrameEnds .join answers fun src _ t => (t.endSource src).readJoin answers
    | .heard h b => s.receiveState .join h (wordBytes b.digest ++ wordBytes b.nonce) answers (b.digest == s.port.digest) .join)

/-! ### LEAVE, HEARTBEAT, REAP -/

/-- LEAVE (R36, R133). -/
def execLeave (origin : Origin Unit) (answers : Answers) (s : State) : Host.Outcome State Fault Refusal :=
  .next (s.stateFrameEnds .leave origin answers (fun _ => []) (fun _ => .leave) (fun _ => .leave))

/-- HEARTBEAT (R37). -/
def execHeartbeat (origin : Origin Unit) (answers : Answers) (s : State) : Host.Outcome State Fault Refusal :=
  .next (s.stateFrameEnds .heartbeat origin answers (fun _ => []) (fun _ => .heartbeat) (fun _ => .heartbeat))

/-- REAP (R38, R39). -/
def execReap (origin : Origin Byte) (answers : Answers) (s : State) : Host.Outcome State Fault Refusal :=
  .next (s.stateFrameEnds .reap origin answers (fun t => [t]) (fun t => .reap t) (fun body => .reap (bodyByte body 0)))

/-! ### Table frames -/

/-- CLAIM's fields from its three body bytes (R58). -/
def claimOf (resource modeByte tag : Byte) : StateBody := .claim resource (claimMode modeByte) (claimMayWait modeByte) tag

/-- CLAIM (R14, R15, R16). -/
def execClaim (origin : Origin ClaimBody) (answers : Answers) (s : State) : Host.Outcome State Fault Refusal :=
  .next (s.stateFrameEnds .claim origin answers (fun b => [b.resource, b.modeByte, b.tag])
    (fun b => claimOf b.resource b.modeByte b.tag) (fun body => claimOf (bodyByte body 0) (bodyByte body 1) (bodyByte body 2)))

/-- RELEASE (R17). -/
def execRelease (origin : Origin Byte) (answers : Answers) (s : State) : Host.Outcome State Fault Refusal :=
  .next (s.stateFrameEnds .release origin answers (fun r => [r]) (fun r => .release r) (fun body => .release (bodyByte body 0)))

/-- WITHDRAW (R18). -/
def execWithdraw (origin : Origin Byte) (answers : Answers) (s : State) : Host.Outcome State Fault Refusal :=
  .next (s.stateFrameEnds .withdraw origin answers (fun r => [r]) (fun r => .withdraw r) (fun body => .withdraw (bodyByte body 0)))

/-- DOWNGRADE (R19). -/
def execDowngrade (origin : Origin Byte) (answers : Answers) (s : State) : Host.Outcome State Fault Refusal :=
  .next (s.stateFrameEnds .downgrade origin answers (fun r => [r]) (fun r => .downgrade r) (fun body => .downgrade (bodyByte body 0)))

end Sys2Proof.Machine
end

