-- ==== Sys2Proof/Machine/ServiceFrames.lean ====
section
/-! DEFINITION. The four service frames: SYNC_REQ, SNAP_HEAD, SNAP_ENTRY, SNAP_TAIL (ch. 6). -/

namespace Sys2Proof.Machine

/-- The train's own frame restarts the heartbeat timer at LEASE/4, in IN_STEP (R48); heartbeat due stays as it is. -/
def State.restartHeartbeatTimer (s : State) : State :=
  if s.ctl.state = .inStep then { s with lease := { s.lease with heartbeat := .running (s.leaseUs / 4) } } else s

/-! ### SYNC_REQ -/

/-- Train intent is set at an IN_STEP station; the phase moves from NONE to HEAD (R106, R108), a new frame with a new count
(R83). -/
def State.setTrainIntent (s : State) : State :=
  if s.ctl.state = .inStep then
    { s with cont := { s.cont with trainIntent := true, attempts := if s.sync.phase = .none then { s.cont.attempts with train := 0 } else s.cont.attempts },
             sync := { s.sync with phase := if s.sync.phase = .none then .head else s.sync.phase } }
  else s

/-- The station's own SYNC_REQ has completed: the retry timer starts at LEASE/2 (R105). -/
def State.startRetry (s : State) : State := { s with sync := { s.sync with retry := .running (s.leaseUs / 2) } }

/-- SYNC_REQ (R104, R105, R106). -/
def execSyncReq (origin : Origin Unit) (answers : Answers) (s : State) : Host.Outcome State Fault Refusal :=
  .next
    (match origin with
    | .own => s.ownFrameEnds .syncReq answers fun src _ t => (t.endSource src).startRetry.setTrainIntent
    | .heard h _ => s.receive .syncReq h [] answers none State.setTrainIntent)

/-! ### SNAP_HEAD -/

/-- The station's own SNAP_HEAD has completed and it is IN_STEP: it begins serving (R107, R108, R109). -/
def State.beginServing (s : State) (body : List Byte) : State :=
  if s.ctl.state = .inStep then
    { s with cont := { s.cont with trainIntent := false },
             sync := { s.sync with phase := .entries, cursor := 0, sendCheck := checkBytes checkPreset body } }
  else s

/-- Another station's SNAP_HEAD has completed: train intent is cleared and the phase returns from HEAD to NONE (R107, R108);
the retry timer stops (R105). -/
def State.standDown (s : State) : State :=
  { s with cont := s.cont.clearTrainIntent,
           sync := { s.sync with phase := if s.sync.phase = .head then .none else s.sync.phase, retry := .stopped } }

/-- A requesting station examines a completed head (R114): digest, TABLE_SIZE, then the shadow opens. A shadow already OPEN is
replaced without an event. -/
def State.openShadow (s : State) (source : Station) (body : List Byte) : State :=
  let s := { s with sync := { s.sync with shadow := none } }
  match headOf body with
  | none => s
  | some f =>
    if f.digest ≠ s.port.digest then s.expel .refused .refused 0#16
    else if f.tableSize ≠ s.tableSize then { s with cont := { s.cont with syncReqPending := true } }
    else
      let shadow : Shadow :=
        { source := source, trainSequence := f.trainSequence, roster := f.roster, poolInUse := f.poolInUse, headBody := body, claims := [] }
      { s with cont := s.cont.clearSyncReq, sync := { s.sync with retry := .stopped, shadow := some shadow } }

/-- SNAP_HEAD (R80, R107, R108, R114). A shadow opens at a station that was requesting when CHECK ended. -/
def execSnapHead (origin : Origin (List Byte)) (answers : Answers) (s : State) : Host.Outcome State Fault Refusal :=
  .next
    (match origin with
    | .own => s.ownFrameEnds .snapHead answers fun src f t => ((t.endSource src).beginServing f.body).restartHeartbeatTimer
    | .heard h body => s.receive .snapHead h body answers none fun t =>
        if s.ctl.state.requesting then t.standDown.openShadow h.station body else t.standDown)

/-! ### SNAP_ENTRY -/

/-- The records of a SNAP_ENTRY are taken one by one while each carries the next index; none when one does not (R115). -/
def Shadow.takeRecords (sh : Shadow) : List EntryRecord → Option Shadow
  | [] => some sh
  | r :: rs => if r.index.toNat = sh.claims.length then ({ sh with claims := sh.claims ++ [r.claim] } : Shadow).takeRecords rs else none

/-- A completed SNAP_ENTRY from the shadow's Source (R115); any other leaves the sync unit as it is (R113). -/
def State.takeEntries (s : State) (sender : Station) (body : List Byte) : State :=
  match s.sync.shadow, recordsOf body with
  | some sh, some records =>
    if sh.source ≠ sender then s
    else
      match sh.takeRecords records with
      | some sh' => { s with sync := { s.sync with shadow := some sh' } }
      | none => s.dropShadow
  | _, _ => s

/-- The server's own SNAP_ENTRY has completed: its body runs through the send check and the cursor moves past the last index
it carried; at TABLE_SIZE the phase moves to TAIL (R110). -/
def State.advanceCursor (s : State) (body : List Byte) : State :=
  if s.sync.phase = .entries then
    let cursor := s.sync.cursor + ((recordsOf body).getD []).length
    { s with sync := { s.sync with sendCheck := checkBytes s.sync.sendCheck body, cursor := cursor, phase := if s.tableSize ≤ cursor then .tail else .entries } }
  else s

/-- SNAP_ENTRY (R110, R115). -/
def execSnapEntry (origin : Origin (List Byte)) (answers : Answers) (s : State) : Host.Outcome State Fault Refusal :=
  .next
    (match origin with
    | .own => s.ownFrameEnds .snapEntry answers fun src f t => ((t.endSource src).advanceCursor f.body).restartHeartbeatTimer
    | .heard h body => s.receive .snapEntry h body answers none fun t => t.takeEntries h.station body)

/-! ### SNAP_TAIL and installation -/

/-- The bytes the replica check runs over, formed anew from the shadow (R61, R116). -/
def Shadow.bytes (sh : Shadow) : List Byte :=
  sh.headBody ++ (sh.claims.zipIdx.flatMap fun c => c.1.recordBytes (BitVec.ofNat 8 c.2))

/-- The three tests of the tail (R116). -/
def Shadow.good (sh : Shadow) (tableSize : Nat) (check : Word) : Bool :=
  sh.claims.length == tableSize && sh.poolInUse == (sh.claims.map fun c => c.waiters.length).sum &&
    checkBytes checkPreset sh.bytes == check

/-- Installation of a good shadow that shows the local station PRESENT, with its reconciliation, one step (R119, R120, R153).
Countdowns of PRESENT peers are set to LEASE, all others to zero (R43). -/
def State.install (s : State) (sh : Shadow) : State :=
  let replica := s.port.installed sh
  let withdrawn := fun tag => s.req.contexts.any fun c => c.tag == tag && c.state == .withdrawing && (c.reconciled replica s.ctl.number).isSome
  ({ s with replica := replica, ctl := { s.ctl with state := .inStep },
            lease := { remaining := Vector.ofFn fun i : Fin 16 => if sh.roster[i] = .present ∧ i ≠ s.ctl.number then s.leaseUs else 0,
                       reapSet := 0#16, heartbeat := .running (s.leaseUs / 4) },
            cont := { (s.cont.clearSyncReq).removeEntries withdrawn with heartbeatDue := false },
            sync := { s.sync with shadow := none, retry := .stopped },
            req := s.req.complete fun c => c.reconciled replica s.ctl.number } : State).raise .regained

/-- A good shadow: eviction if its roster does not show the local station PRESENT, else installation (R118, R119). -/
def State.settleShadow (s : State) (sh : Shadow) : State :=
  if sh.roster[s.ctl.number] = .present then s.install sh else s.expel .evicted .evicted 0#16

/-- A completed SNAP_TAIL from the shadow's Source (R116). -/
def State.takeTail (s : State) (sender : Station) (check : Word) : State :=
  match s.sync.shadow with
  | none => s
  | some sh =>
    if sh.source ≠ sender then s
    else if sh.good s.tableSize check then s.settleShadow sh
    else s.dropShadow

/-- The server's own SNAP_TAIL has completed: the train has ended normally (R111). -/
def State.finishTrain (s : State) : State := if s.sync.phase = .tail then s.endTrain else s

/-- SNAP_TAIL (R82, R111, R116 to R120). -/
def execSnapTail (origin : Origin Word) (answers : Answers) (s : State) : Host.Outcome State Fault Refusal :=
  .next
    (match origin with
    | .own => s.ownFrameEnds .snapTail answers fun src _ t => (t.endSource src).finishTrain.restartHeartbeatTimer
    | .heard h check => s.receive .snapTail h (wordBytes check) answers none fun t => t.takeTail h.station check)

end Sys2Proof.Machine
end

