-- ==== Sys2Proof/Machine/Dispatch.lean ====
section
/-! DEFINITION. exec: one arm per command. -/

namespace Sys2Proof.Machine

def exec (i : Instr) (s : State) : Host.Outcome State Fault Refusal :=
  match i with
  | .hardwareReset straps => Sys2Proof.Machine.execHardwareReset straps s
  | .readStatus spi => Sys2Proof.Machine.execReadStatus s spi
  | .readEntry index spi => Sys2Proof.Machine.execReadEntry index s spi
  | .readRoster spi => Sys2Proof.Machine.execReadRoster s spi
  | .take spi => Sys2Proof.Machine.execTake s spi
  | .takeRecordRemoval => Sys2Proof.Machine.execTakeRecordRemoval s
  | .submit record spi => Sys2Proof.Machine.execSubmit record s spi
  | .cancel tag spi => Sys2Proof.Machine.execCancel tag s spi
  | .clearFlags mask spi => Sys2Proof.Machine.execClearFlags mask s spi
  | .writeMasks masks notice spi => Sys2Proof.Machine.execWriteMasks masks notice s spi
  | .writeConfig offset count data spi => Sys2Proof.Machine.execWriteConfig offset count data s spi
  | .start spi => Sys2Proof.Machine.execStart s spi
  | .portLeave spi => Sys2Proof.Machine.execPortLeave s spi
  | .rejoin spi => Sys2Proof.Machine.execRejoin s spi
  | .restart spi => Sys2Proof.Machine.execRestart s spi
  | .unknownTransactionCode code spi => Sys2Proof.Machine.execUnknownTransactionCode code spi s
  | .transactionCutShort bytes spi => Sys2Proof.Machine.execTransactionCutShort bytes s spi
  | .offer => Sys2Proof.Machine.execOffer s
  | .arbitrationLost slot => Sys2Proof.Machine.execArbitrationLost s slot
  | .arbitrationPassed => Sys2Proof.Machine.execArbitrationPassed s
  | .bitError slot => Sys2Proof.Machine.execBitError slot s
  | .join origin answers => Sys2Proof.Machine.execJoin origin answers s
  | .leave origin answers => Sys2Proof.Machine.execLeave origin answers s
  | .heartbeat origin answers => Sys2Proof.Machine.execHeartbeat origin answers s
  | .reap origin answers => Sys2Proof.Machine.execReap origin answers s
  | .claim origin answers => Sys2Proof.Machine.execClaim origin answers s
  | .release origin answers => Sys2Proof.Machine.execRelease origin answers s
  | .withdraw origin answers => Sys2Proof.Machine.execWithdraw origin answers s
  | .downgrade origin answers => Sys2Proof.Machine.execDowngrade origin answers s
  | .syncReq origin answers => Sys2Proof.Machine.execSyncReq origin answers s
  | .snapHead origin answers => Sys2Proof.Machine.execSnapHead origin answers s
  | .snapEntry origin answers => Sys2Proof.Machine.execSnapEntry origin answers s
  | .snapTail origin answers => Sys2Proof.Machine.execSnapTail origin answers s
  | .formatError frame => Sys2Proof.Machine.execFormatError frame s
  | .truncation bits => Sys2Proof.Machine.execTruncation bits s
  | .receiveOverrun frame => Sys2Proof.Machine.execReceiveOverrun frame s
  | .roundEnd => Sys2Proof.Machine.execRoundEnd s
  | .holdTimeout => Sys2Proof.Machine.execHoldTimeout s
  | .leaseExpired station => Sys2Proof.Machine.execLeaseExpired station s
  | .heartbeatDue => Sys2Proof.Machine.execHeartbeatDue s
  | .retryTimerExpiry => Sys2Proof.Machine.execRetryTimerExpiry s
  | .joinWaitElapsed => Sys2Proof.Machine.execJoinWaitElapsed s
  | .waitTimerExpiry tag => Sys2Proof.Machine.execWaitTimerExpiry tag s
  | .abandon => Sys2Proof.Machine.execAbandon s
  | .enterMuted => Sys2Proof.Machine.execEnterMuted s
  | .recovery => Sys2Proof.Machine.execRecovery s
  | .glitch slots => Sys2Proof.Machine.execGlitch s slots

end Sys2Proof.Machine
end

