-- ==== Sys2Proof/Machine/Time.lean ====
section
/-! DEFINITION. What the part does by itself when no command waits (log entry 2): an internal step that is due, or one slot
of the line passes, recessive unless a frame is on the line or a fault holds it dominant. Events the slot brings about join the queue as the commands that stand for them, in the order of log
entry 4. -/

namespace Sys2Proof.Machine

/-- A timer after some time; one with no more than that left expires, and its event command stops it. -/
def Timer.pass (us : Nat) : Timer → Timer
  | .stopped => .stopped
  | .running r => if r ≤ us then .running r else .running (r - us)

/-- The timer expires within some time. -/
def Timer.expires (us : Nat) : Timer → Bool
  | .stopped => false
  | .running r => decide (r ≤ us)

/-- The steps that are due by a count: abandonment, muting, recovery (R84, R100, R102). -/
def State.dueSteps (s : State) : List Instr :=
  (if s.abandonDue.isSome then [.abandon] else []) ++
    (if s.ctl.state.rejects && decide (Config.rejectLimit ≤ s.ctl.rejectCount) then [.enterMuted] else []) ++
    (if s.ctl.state == .muted && decide (Config.cleanLimit ≤ s.ctl.cleanCount) then [.recovery] else [])

/-- The idle count after one more slot: zero in a frame and while a fault holds the line dominant (R52). -/
def State.nextIdle (s : State) : Nat := if s.lineIdle then s.line.idleCount + 1 else 0

/-- The lease of a station expires within one slot. -/
def State.leaseExpires (s : State) (x : Station) : Bool := s.leaseRunning x && decide (s.lease.remaining[x] ≤ s.slotUs)

/-- The events of one slot: timers first, then the idle count's events, then the offer (R42, R47, R72, R79, R82, R105, R123,
R144). -/
def State.slotEvents (s : State) : List Instr :=
  (if s.ctl.joinWait.expires s.slotUs then [.joinWaitElapsed] else []) ++
    ((List.finRange 16).filter s.leaseExpires).map .leaseExpired ++
    (if s.lease.heartbeat.expires s.slotUs then [.heartbeatDue] else []) ++
    (if s.sync.retry.expires s.slotUs then [.retryTimerExpiry] else []) ++
    (s.req.contexts.filter fun c => c.isOpen && c.waitTimer.expires s.slotUs).map (fun c => .waitTimerExpiry c.tag) ++
    (if s.nextIdle = Config.roundGap then [.roundEnd] else []) ++
    (if s.cont.hold.isSome && decide (Config.holdTimeout ≤ s.nextIdle) then [.holdTimeout] else []) ++
    (if Config.startGap ≤ s.nextIdle then [.offer] else [])

/-- Every countdown and timer after one slot; a dominant period outside a frame has one slot less to go (log entry 24). -/
def State.passSlot (s : State) : State :=
  { s with line := { s.line.idleAt s.nextIdle with dominantLeft := if s.frameInProgress then s.line.dominantLeft else s.line.dominantLeft - 1 },
           ctl := { s.ctl with joinWait := s.ctl.joinWait.pass s.slotUs },
           lease := { s.lease with heartbeat := s.lease.heartbeat.pass s.slotUs,
                                   remaining := Vector.ofFn fun x : Fin 16 => if s.leaseRunning x && !s.leaseExpires x then s.lease.remaining[x] - s.slotUs else s.lease.remaining[x] },
           sync := { s.sync with retry := s.sync.retry.pass s.slotUs },
           req := { s.req with contexts := s.req.contexts.map fun c => if c.isOpen then { c with waitTimer := c.waitTimer.pass s.slotUs } else c } }

/-- One turn of the part with no command waiting. OFFLINE it idles. -/
def State.tick (s : State) : State :=
  if !s.active then s
  else if !s.dueSteps.isEmpty then { s with pending := s.dueSteps }
  else { s.passSlot with pending := s.slotEvents }

end Sys2Proof.Machine
end

