-- ==== Sys2Proof/Safety.lean ====
section
/-! DEFINITION. What a safe run is, in the terms the statements use: no command stops the part, the laws of the device that
its own rules keep, and the reading of frame commands the statements share. -/

namespace Sys2Proof.Machine

/-- The outcome is a next state. -/
def isNext : Host.Outcome State Fault Refusal → Bool
  | .next _ => true
  | .fault _ => false
  | .refused _ => false

/-- The step goes on. -/
def State.stepsOn (s : State) : Bool := isNext (step s)

/-! ### Reading of frame commands -/

/-- A frame heard, as the statements speak of it. -/
structure HeardFrame where
  kind : FrameKind
  head : Head
  bytes : List Byte
  answers : Answers

/-- The frame of a command that is a frame heard, of any of the twelve kinds. -/
def Instr.heardFrame : Instr → Option HeardFrame
  | .join (.heard h b) a => some { kind := .join, head := h, bytes := wordBytes b.digest ++ wordBytes b.nonce, answers := a }
  | .leave (.heard h _) a => some { kind := .leave, head := h, bytes := [], answers := a }
  | .heartbeat (.heard h _) a => some { kind := .heartbeat, head := h, bytes := [], answers := a }
  | .reap (.heard h t) a => some { kind := .reap, head := h, bytes := [t], answers := a }
  | .claim (.heard h b) a => some { kind := .claim, head := h, bytes := [b.resource, b.modeByte, b.tag], answers := a }
  | .release (.heard h r) a => some { kind := .release, head := h, bytes := [r], answers := a }
  | .withdraw (.heard h r) a => some { kind := .withdraw, head := h, bytes := [r], answers := a }
  | .downgrade (.heard h r) a => some { kind := .downgrade, head := h, bytes := [r], answers := a }
  | .syncReq (.heard h _) a => some { kind := .syncReq, head := h, bytes := [], answers := a }
  | .snapHead (.heard h b) a => some { kind := .snapHead, head := h, bytes := b, answers := a }
  | .snapEntry (.heard h b) a => some { kind := .snapEntry, head := h, bytes := b, answers := a }
  | .snapTail (.heard h c) a => some { kind := .snapTail, head := h, bytes := wordBytes c, answers := a }
  | _ => none

/-- What the table engine uses of a state frame's body bytes (R58, R59). -/
def stateBodyOf (k : FrameKind) (bytes : List Byte) : Option StateBody :=
  match k with
  | .join => some .join
  | .leave => some .leave
  | .heartbeat => some .heartbeat
  | .reap => some (.reap (bodyByte bytes 0))
  | .claim => some (claimOf (bodyByte bytes 0) (bodyByte bytes 1) (bodyByte bytes 2))
  | .release => some (.release (bodyByte bytes 0))
  | .withdraw => some (.withdraw (bodyByte bytes 0))
  | .downgrade => some (.downgrade (bodyByte bytes 0))
  | .syncReq | .snapHead | .snapEntry | .snapTail => none

/-- The command is a frame of this station's own that ends its answer slots: its kind and the samples. -/
def Instr.ownFrame : Instr → Option (FrameKind × Answers)
  | .join .own a => some (.join, a)
  | .leave .own a => some (.leave, a)
  | .heartbeat .own a => some (.heartbeat, a)
  | .reap .own a => some (.reap, a)
  | .claim .own a => some (.claim, a)
  | .release .own a => some (.release, a)
  | .withdraw .own a => some (.withdraw, a)
  | .downgrade .own a => some (.downgrade, a)
  | .syncReq .own a => some (.syncReq, a)
  | .snapHead .own a => some (.snapHead, a)
  | .snapEntry .own a => some (.snapEntry, a)
  | .snapTail .own a => some (.snapTail, a)
  | _ => none

/-- The command is an SPI transaction, its end, or a hardware reset: the rows the host causes. -/
def Instr.fromHost : Instr → Bool
  | .hardwareReset _ | .readStatus _ | .readEntry _ _ | .readRoster _ | .take _ | .takeRecordRemoval | .submit _ _ | .cancel _ _
  | .clearFlags _ _ | .writeMasks _ _ _ | .writeConfig _ _ _ _ | .start _ | .portLeave _ | .rejoin _ | .restart _
  | .unknownTransactionCode _ _ | .transactionCutShort _ _ => true
  | _ => false

/-- A frame heard that passes this station's checks of LEN and body (R57 to R61). -/
def State.wellFormedHere (s : State) (f : HeardFrame) : Bool := lenGood f.kind f.bytes.length && bodyGood s.tableSize f.kind f.bytes

/-- This station's own frame of a kind is past arbitration and runs to its answer slots (R78). -/
def State.sendsKind (s : State) (k : FrameKind) (src : OfferSource) (f : TxFrame) : Prop :=
  s.cont.offer = some { source := src, frame := f, phase := .sending } ∧ f.kind = k

/-- A member agrees with the frame: the JOIN's digest is its own (R90); the SEQ of any other state frame is its table sequence
(R89). -/
def State.agreesWith (s : State) (f : HeardFrame) : Prop :=
  if f.kind = .join then f.bytes.take 2 = wordBytes s.port.digest else f.head.seq = s.replica.sequence

/-- A state frame's body names the local number as the target of a REAP. -/
def StateBody.reaps (b : StateBody) (x : Station) : Prop := ∃ target, b = .reap target ∧ reapTarget target = some x

/-- No hold by a station other than x is in force, so that a frame of x is no intrusion (R82). -/
def State.noIntrusionBy (s : State) (x : Station) : Prop := s.cont.hold = none ∨ s.cont.hold = some x

/-! ### What a frame heard, or one that completed, leaves -/

/-- A frame of x heard whole and well formed renews the countdown of x and takes x out of the reap set (R41, R45), and counts as
received cleanly (R99, R101). That the clean-frame count moves only while MUTED is a DESIGN CHOICE (log entry 25). -/
def State.heardCleanly (s t : State) (x : Station) : Prop :=
  (x ≠ s.ctl.number → t.lease.remaining[x] = s.leaseUs) ∧
  (∀ y : Station, y ≠ x ∨ y = s.ctl.number → t.lease.remaining[y] = s.lease.remaining[y]) ∧
  (∀ y : Station, t.lease.reapSet.has y = (s.lease.reapSet.has y && decide (y ≠ x))) ∧
  (s.ctl.state ≠ .muted → t.ctl.rejectCount = 0 ∧ t.ctl.cleanCount = s.ctl.cleanCount) ∧
  (s.ctl.state = .muted → t.ctl.cleanCount = min 64 (s.ctl.cleanCount + 1))

/-- What a frame of x that completed with REJECT recessive leaves of the hold (R80, R82): with CONT = 1 the hold is x's, with
CONT = 0 there is none; silent is cleared when a hold has ended, by release or by intrusion, and else stays. -/
def State.holdFollows (s t : State) (x : Station) (cont : Bool) : Prop :=
  t.cont.hold = (if cont then some x else none) ∧
  (s.cont.hold = none ∨ (s.cont.hold = some x ∧ cont = true) → t.cont.silent = s.cont.silent) ∧
  (s.cont.hold = some x → cont = false → t.cont.silent = false) ∧
  (∀ h : Station, s.cont.hold = some h → h ≠ x → t.cont.silent = false)

/-- A frame heard from a station other than the holder ends the hold as abandoned (R82): an OPEN shadow of that holder is discarded with
TRAIN_LOST, and SYNC_REQ is pending unless the frame is a SNAP_HEAD, which may open a shadow of its own, or puts the station in an end
state (R117); a train being served has ended (R112). -/
def State.intrusionEnds (s t : State) (f : HeardFrame) : Prop :=
  ∀ h : Station, s.cont.hold = some h → h ≠ f.head.station →
    (∀ sh : Shadow, s.sync.shadow = some sh → sh.source = h →
      t.port.flag .trainLost = true ∧
      (∀ u : Shadow, t.sync.shadow = some u → u.source = f.head.station ∧ f.kind = .snapHead) ∧
      (f.kind ≠ .snapHead → t.ctl.state.ended = false → t.cont.syncReqPending = true)) ∧
    (s.sync.phase = .entries ∨ s.sync.phase = .tail →
      t.sync.phase ≠ .entries ∧ t.sync.phase ≠ .tail ∧ t.sync.cursor = 0 ∧ t.sync.sendCheck = 0xFFFF#16)

/-! ### Shapes the statements share -/

/-- A replica in the empty form of Table 1-1. -/
def Replica.isEmptyForm (r : Replica) : Prop :=
  (∀ i : Nat, r.entry i = { permit := 0#16, sharedOk := false, state := .free, holders := 0#16, waiters := [], generation := 0#16 }) ∧
  r.poolInUse = 0 ∧ (∀ x : Station, r.membership x = .absent) ∧ r.sequence = 0#16 ∧ r.valid = false

/-- What a whole transaction leaves on SDO: the header byte sampled at CSn falling, 00h for each further input byte, and, for the
bytes clocked in after the input, the output bytes and then 00h (R159). -/
def State.sdoOf (s : State) (inputs clockedAfter : Nat) (out : List Byte) : List Byte :=
  s.port.selected.getD s.header :: (List.replicate inputs 0#8 ++
    (out.take clockedAfter ++ List.replicate (clockedAfter - out.length) 0#8))

/-- A whole transaction's answer on SDO, CSn high again, and the rest of the state as it was. -/
def State.shifted (s : State) (inputs clockedAfter : Nat) (out : List Byte) (capture : Option CompletionRecord) : State :=
  { s with port := { s.port with selected := none, sdo := s.sdoOf inputs clockedAfter out, capture := capture } }

/-- A transaction with the moment CSn falls in place of its end; none for a command that is no transaction. -/
def Instr.atCsnFall : Instr → Option Instr
  | .readStatus _ => some (.readStatus .csnFalls)
  | .readEntry i _ => some (.readEntry i .csnFalls)
  | .readRoster _ => some (.readRoster .csnFalls)
  | .take _ => some (.take .csnFalls)
  | .submit r _ => some (.submit r .csnFalls)
  | .cancel t _ => some (.cancel t .csnFalls)
  | .clearFlags m _ => some (.clearFlags m .csnFalls)
  | .writeMasks m n _ => some (.writeMasks m n .csnFalls)
  | .writeConfig o c d _ => some (.writeConfig o c d .csnFalls)
  | .start _ => some (.start .csnFalls)
  | .portLeave _ => some (.portLeave .csnFalls)
  | .rejoin _ => some (.rejoin .csnFalls)
  | .restart _ => some (.restart .csnFalls)
  | .unknownTransactionCode c _ => some (.unknownTransactionCode c .csnFalls)
  | .transactionCutShort b _ => some (.transactionCutShort b .csnFalls)
  | _ => none

/-- The offer of a context frame is over in its arbitration field when its entry leaves the send list, and runs on past it; any other
offer stays (R75). -/
def State.offerStopped (s t : State) (gone : Byte → Prop) : Prop :=
  (∀ (o : Offer) (tag : Byte), s.cont.offer = some o → o.phase = .arbitrating → o.source = .entry tag → gone tag → t.cont.offer = none) ∧
  (∀ o : Offer, s.cont.offer = some o → (o.phase ≠ .arbitrating ∨ ∀ tag : Byte, o.source = .entry tag → ¬ gone tag) → t.cont.offer = some o) ∧
  (s.cont.offer = none → t.cont.offer = none)

/-- What an expiry or a CANCEL leaves of the context with a tag, by its state (Table 8-6); `s` is before, `t` after, and the
cause is the one recorded. -/
def State.endedByCause (s t : State) (c : Context) (cause : Cause) (res : Result) : Prop :=
  (c.state = .queuedLocal ∨ c.state = .contending →
    t.req.queue = s.req.queue ++
      [{ tag := c.tag, kind := c.kind, mode := c.mode, tooLate := false, result := res, resource := c.resource, generation := 0#16, sequence := 0#16 }] ∧
    (t.req.find c.tag).map Context.state = some .done ∧
    (t.cont.sendList = s.cont.sendList.filter fun e => e.tag != c.tag) ∧ s.offerStopped t (fun tag => tag = c.tag)) ∧
  (c.state = .waiting →
    t.req.queue = s.req.queue ∧
    t.req.find c.tag = some { c with state := .withdrawing, withdrawPhase := .queued, cause := cause, waitTimer := .stopped } ∧
    t.cont.sendList = s.cont.sendList ++
      [{ kind := .withdraw, tag := c.tag, resource := c.resource, mode := .excl, mayWait := false, attempts := 0, carried := false }] ∧
    t.cont.offer = s.cont.offer) ∧
  (c.state = .transmitting →
    t.req.queue = s.req.queue ∧ t.req.find c.tag = some { c with cause := cause, waitTimer := .stopped } ∧
    t.cont = s.cont) ∧
  (∀ tag : Byte, tag ≠ c.tag → t.req.find tag = s.req.find tag) ∧
  t.cont = { s.cont with sendList := t.cont.sendList, offer := t.cont.offer } ∧ t = { s with req := t.req, cont := t.cont, port := t.port }

/-- What one slot of time makes of a timer: one with more left than the slot runs on, one with no more keeps its time until its event
command stops it (log entry 2). -/
def Timer.afterSlot (slotUs : Nat) (before after : Timer) : Prop :=
  (before = .stopped → after = .stopped) ∧
  ∀ r : Nat, before = .running r → (slotUs < r → after = .running (r - slotUs)) ∧ (r ≤ slotUs → after = before)

/-- The timer expires within one slot. -/
def Timer.dueIn (slotUs : Nat) (t : Timer) : Prop := ∃ r : Nat, t = .running r ∧ r ≤ slotUs

/-! ### The order of offer, as Tables 4-2 and 4-3 give it -/

/-- The station's train has no frame ready: no train, train intent cleared before its head, or its count at 16. -/
def State.noTrainFrame (s : State) : Prop :=
  16 ≤ s.cont.attempts.train ∨ s.sync.phase = .none ∨ (s.sync.phase = .head ∧ s.cont.trainIntent = false)

/-- The lowest number in the reap set. -/
def State.lowestReap (s : State) (x : Station) : Prop :=
  s.lease.reapSet.has x = true ∧ ∀ y : Station, y < x → s.lease.reapSet.has y = false

/-- An IN_STEP station has no class 1 frame ready. -/
def State.noClassOne (s : State) : Prop :=
  (∃ x : Station, s.lowestReap x ∧ s.cont.attempts.reapTarget = some x ∧ 16 ≤ s.cont.attempts.reap) ∨
  (s.lease.reapSet = 0#16 ∧ (s.cont.heartbeatDue = false ∨ 16 ≤ s.cont.attempts.heartbeat))

/-- The entry of the send list nearest the head among those with a property whose count is below 16. -/
def State.oldestEntry (s : State) (p : SendEntry → Prop) (e : SendEntry) : Prop :=
  ∃ before after : List SendEntry, s.cont.sendList = before ++ e :: after ∧ p e ∧ e.attempts < 16 ∧
    ∀ x ∈ before, p x → 16 ≤ x.attempts

/-- The frame of a send-list entry, as Tables 3-3 and 8-5 give it: SEQ the table sequence, CONT 0, the resource first, and for a CLAIM
its mode byte and tag. -/
def State.frameOf (s : State) (e : SendEntry) : TxFrame :=
  { kind := e.kind.frameKind, cont := false, seq := s.replica.sequence,
    body := if e.kind = .claim then
        [e.resource, (if e.mode = .shared then 0x80#8 else 0#8) ||| (if e.mayWait then 0x40#8 else 0#8), e.tag]
      else [e.resource] }

/-- The rows of Table 4-3 for send-list entries of some kind: class 2 before class 3, the oldest of its class, and none while turn-used
is set. -/
def State.entryRows (s : State) (allowed : SendEntry → Prop) : Prop :=
  (s.cont.turnUsed = true → s.chooseOffer = none) ∧
  (s.cont.turnUsed = false →
    (∀ e : SendEntry, s.oldestEntry (fun x => allowed x ∧ x.kind ≠ .claim) e → s.chooseOffer = some (.entry e.tag, s.frameOf e)) ∧
    (∀ e : SendEntry, s.oldestEntry (fun x => allowed x ∧ x.kind = .claim) e →
      (∀ x ∈ s.cont.sendList, allowed x → x.kind ≠ .claim → 16 ≤ x.attempts) → s.chooseOffer = some (.entry e.tag, s.frameOf e)) ∧
    ((∀ x ∈ s.cont.sendList, allowed x → 16 ≤ x.attempts) → s.chooseOffer = none))

/-! ### Grants to the local station -/

/-- The grants of an apply that name the local number, in grant order. -/
def State.grantsHere (s : State) (a : Applied) : List TableGrant :=
  a.grants.filter fun g => g.grant.waiter.station == s.ctl.number

/-- The grant names the context: its tag, its resource, and it is WAITING or WITHDRAWING (R143). -/
def TableGrant.names (g : TableGrant) (c : Context) : Bool :=
  c.tag == g.grant.waiter.tag && c.resource.toNat == g.resource && (c.state == .waiting || c.state == .withdrawing)

/-- A DONE context as its completion leaves it: no withdraw phase, the wait timer stopped (R144, R155). -/
def Context.done (c : Context) : Context := { c with state := .done, withdrawPhase := .none, waitTimer := .stopped }

/-- What some grants to the local station do, in their order: each context they name completes GRANTED, with the GENERATION of the grant
and the sequence after the apply, TOO_LATE when it was WITHDRAWING, and then its WITHDRAW leaves the send list; a grant that names no
context is dropped (R143). -/
def State.settlesGrants (s t : State) (grants : List TableGrant) (sequence : Word) : Prop :=
  t.req.queue = s.req.queue ++ grants.filterMap (fun g => (s.req.contexts.find? g.names).map fun c =>
    c.record { result := .granted, tooLate := c.state == .withdrawing, generation := g.grant.generation, sequence := sequence }) ∧
  t.req.contexts = s.req.contexts.map (fun c => if grants.any fun g => g.names c then c.done else c) ∧
  t.cont.sendList = s.cont.sendList.filter fun e =>
    !s.req.contexts.any fun c => c.tag == e.tag && c.state == .withdrawing && grants.any fun g => g.names c

/-! ### Attempts -/

/-- A failed attempt of a context frame: the entry with the tag has one attempt more, and an unmarked TRANSMITTING context is
CONTENDING again; a marked one completes with its cause and its entry is gone (R141, R147). -/
def State.attemptFailed (s t : State) (tag : Byte) (c : Context) : Prop :=
  (c.state = .transmitting → c.cause = .none →
    t.req.find tag = some { c with state := .contending } ∧ t.req.queue = s.req.queue ∧
    t.cont.sendList = s.cont.sendList.map fun e => if e.tag == tag then { e with attempts := min 16 (e.attempts + 1) } else e) ∧
  (c.state = .transmitting → ∀ res : Result, c.cause.result = some res →
    t.req.queue = s.req.queue ++ [c.record { result := res, tooLate := false, generation := 0#16, sequence := 0#16 }] ∧
    (t.req.find tag).map Context.state = some .done ∧
    t.cont.sendList = s.cont.sendList.filter fun e => e.tag != tag) ∧
  (c.state = .withdrawing →
    t.req.find tag = some { c with withdrawPhase := .contending } ∧ t.req.queue = s.req.queue ∧
    t.cont.sendList = s.cont.sendList.map fun e => if e.tag == tag then { e with attempts := min 16 (e.attempts + 1) } else e)

/-- A failed attempt adds 1 to the count of the frame, no higher than 16, and to no other (R83): a REAP's keeps its target, a context
frame's is its entry's. The flag or the set of a station frame stays, so do the requests, and the offer is over (R77, R78). -/
def State.failureCounted (s t : State) (src : OfferSource) : Prop :=
  (src = .train → t.cont.attempts = { s.cont.attempts with train := min 16 (s.cont.attempts.train + 1) }) ∧
  (src = .syncReq → t.cont.attempts = { s.cont.attempts with syncReq := min 16 (s.cont.attempts.syncReq + 1) }) ∧
  (src = .join → t.cont.attempts = { s.cont.attempts with join := min 16 (s.cont.attempts.join + 1) }) ∧
  (src = .leave → t.cont.attempts = { s.cont.attempts with leave := min 16 (s.cont.attempts.leave + 1) }) ∧
  (src = .heartbeat → t.cont.attempts = { s.cont.attempts with heartbeat := min 16 (s.cont.attempts.heartbeat + 1) }) ∧
  (∀ x : Station, src = .reap x → t.cont.attempts = { s.cont.attempts with reap := min 16 (s.cont.attempts.reap + 1) }) ∧
  (∀ tag : Byte, src = .entry tag → t.cont.attempts = s.cont.attempts) ∧
  ((∀ tag : Byte, src ≠ .entry tag) → t.req = s.req ∧ t.cont.sendList = s.cont.sendList) ∧
  t.cont = { s.cont with sendList := t.cont.sendList, attempts := t.cont.attempts, turnUsed := t.cont.turnUsed, offer := none }

/-! ### Laws of a claim entry and of the replica -/

/-- The laws of one entry (R6, R7, R8): STATE and HOLDERS agree; no station is named twice; holders and waiters are in PERMIT;
SHARED needs SHARED_OK; and the head waiter is not grantable. -/
def Entry.lawful (e : Entry) : Prop :=
  (match e.state with
    | .free => e.holders = 0#16 ∧ e.waiters = []
    | .exclusive => ∃ x : Station, e.holders = StationSet.addStation 0#16 x
    | .shared => e.holders ≠ 0#16 ∧ e.sharedOk = true) ∧
  (e.waiters.map Waiter.station).Nodup ∧
  (∀ w ∈ e.waiters, e.holders.has w.station = false ∧ e.permit.has w.station = true ∧ (w.mode = .shared → e.sharedOk = true)) ∧
  (∀ x : Station, e.holders.has x = true → e.permit.has x = true) ∧
  (match e.waiters.head? with
    | none => True
    | some w => match w.mode with
      | .excl => e.holders ≠ 0#16
      | .shared => e.state = .exclusive)

/-- The pool's count in use is the sum of all wait-list lengths, and at most 48 (R12). -/
def Replica.poolLaw (r : Replica) : Prop :=
  r.poolInUse = (r.table.toList.map fun e => e.waiters.length).sum ∧ r.poolInUse ≤ Config.poolSize

/-- Every holder and waiter is PRESENT in the roster (R10). -/
def Replica.namesMembers (r : Replica) : Prop :=
  ∀ i : Nat, ∀ x : Station, ((r.entry i).holders.has x = true ∨ (r.entry i).waits x = true) → r.present x = true

/-- The laws of the replica's claim table at a TABLE_SIZE (R5 to R8, R10, R12): every entry is lawful, entries outside
TABLE_SIZE are empty, members alone are named, and the pool law holds. -/
def Replica.lawful (r : Replica) (tableSize : Nat) : Prop :=
  (∀ i : Nat, (r.entry i).lawful) ∧ (∀ i : Nat, tableSize ≤ i → r.entry i = Entry.empty) ∧ r.namesMembers ∧ r.poolLaw

/-! ### Laws of the station -/

/-- The pool law of the station: of its replica, and the bound for a shadow that may replace it (R12, R61). -/
def State.poolLaw (s : State) : Prop :=
  s.replica.poolLaw ∧ ∀ sh : Shadow, s.sync.shadow = some sh → sh.poolInUse ≤ Config.poolSize

/-- The states whose replica is the empty form (Table 7-1). -/
def StationState.emptyReplica : StationState → Bool
  | .offline | .listening | .joining | .syncing | .departed | .evicted | .refused => true
  | .inStep | .outOfStep | .muted | .leaving => false

/-- Station state and replica agree (R2, R30, Table 7-1): valid in IN_STEP and LEAVING and nowhere else, the local record
PRESENT there, and the empty form in the states Table 7-1 lists. -/
def State.memberLaw (s : State) : Prop :=
  (s.replica.valid = s.ctl.state.applies) ∧ (s.ctl.state.applies = true → s.replica.present s.ctl.number = true) ∧
  (s.ctl.state.emptyReplica = true → s.replica = Replica.empty)

/-- The tags of the DONE contexts, in acceptance order. -/
def RequestUnit.doneTags (r : RequestUnit) : List Byte := (r.contexts.filter fun c => c.state == .done).map Context.tag

/-- The request unit's law (R138, R140, R158): at most eight contexts, no tag twice, one unread record for each DONE context and
no other, and a TAKE in progress has captured the head record. -/
def State.requestLaw (s : State) : Prop :=
  s.req.contexts.length ≤ Config.contextCount ∧ (s.req.contexts.map Context.tag).Nodup ∧
  s.req.doneTags.Perm (s.req.queue.map CompletionRecord.tag) ∧
  ∀ r : CompletionRecord, s.port.capture = some r → s.req.queue.head? = some r

/-- The send list's law (R68, Table 8-4): it names no context twice, and each entry is the frame of a context in use that is
neither WAITING nor DONE; a WITHDRAW is a WITHDRAWING context's and of no other. -/
def State.sendListLaw (s : State) : Prop :=
  (s.cont.sendList.map SendEntry.tag).Nodup ∧
  ∀ e ∈ s.cont.sendList, ∃ c ∈ s.req.contexts, c.tag = e.tag ∧ c.resource = e.resource ∧ c.state ≠ .waiting ∧ c.state ≠ .done ∧
    (e.kind = .withdraw ↔ c.state = .withdrawing)

/-- The bounds of the counts (R83, R84, R99, R100, R101): no count passes its limit, the station-frame attempt counts of Table 4-1
among them, and a MUTED station's reject count is 16. -/
def State.countLaw (s : State) : Prop :=
  s.ctl.rejectCount ≤ Config.rejectLimit ∧ s.ctl.cleanCount ≤ Config.cleanLimit ∧
  (s.ctl.state = .muted → s.ctl.rejectCount = Config.rejectLimit) ∧
  (∀ e ∈ s.cont.sendList, e.attempts ≤ Config.attemptLimit) ∧
  s.cont.attempts.train ≤ Config.attemptLimit ∧ s.cont.attempts.syncReq ≤ Config.attemptLimit ∧
  s.cont.attempts.join ≤ Config.attemptLimit ∧ s.cont.attempts.leave ≤ Config.attemptLimit ∧
  s.cont.attempts.heartbeat ≤ Config.attemptLimit ∧ s.cont.attempts.reap ≤ Config.attemptLimit

/-- The idle count is held at zero before START, in a frame, and while a fault holds the line dominant (R52, R54). -/
def State.lineLaw (s : State) : Prop :=
  s.ctl.state = .offline ∨ s.frameInProgress = true ∨ 0 < s.line.dominantLeft → s.line.idleCount = 0

/-- OFFLINE is the station before START: the lock is open there and nowhere else, and the transceiver and the contention unit
are at rest (R54, R67, R163). -/
def State.offlineLaw (s : State) : Prop :=
  (s.port.locked = true ↔ s.ctl.state ≠ .offline) ∧
  (s.ctl.state = .offline → s.line.idleCount = 0 ∧ s.cont.offer = none ∧ s.cont.sendList = [] ∧ s.req.contexts = [])

end Sys2Proof.Machine
end

