-- ==== Sys2Proof/Certificates/Slice0/Obligations.lean ====
section
/-! DEFINITION. The statements for the provers, in the order of OBLIGATIONS.json. -/

open Sys2Proof Sys2Proof.Machine

/-! ### The queue and the step -/

/-- A step takes the command at the front of the queue and runs it on the state with the queue's rest. -/
def Obligations.StepRunsTheCommandAtTheFront : Prop :=
  ∀ (c : Instr) (rest : List Instr) (s : State), step { s with pending := c :: rest } = exec c { s with pending := rest }

/-- With no command waiting the part takes a turn of its own (DESIGN CHOICE, log entry 2): OFFLINE nothing changes; a due
abandonment, muting or recovery is queued and nothing else changes; else one slot passes. The slot raises the idle count by 1 or, in a
frame or while a fault holds the line dominant (DESIGN CHOICE of how long, log entry 24), holds it at 0; it takes its length off every running timer and countdown that has more left; and the events it brings are
queued: those whose time runs out, ROUND_END as the count reaches 12, HOLD_TIMEOUT under a hold from 40 on, OFFER from 6 on. -/
def Obligations.EmptyQueueStepIsOneTurnOfThePart : Prop :=
  ∀ s : State, s.pending = [] →
    (s.ctl.state = .offline → step s = .next s) ∧
    (s.ctl.state ≠ .offline → s.dueSteps ≠ [] → step s = .next { s with pending := s.dueSteps }) ∧
    ((.abandon ∈ s.dueSteps ↔ s.abandonDue ≠ none) ∧ (.enterMuted ∈ s.dueSteps ↔ s.ctl.state.rejects = true ∧ 16 ≤ s.ctl.rejectCount) ∧
      (.recovery ∈ s.dueSteps ↔ s.ctl.state = .muted ∧ 64 ≤ s.ctl.cleanCount) ∧
      ∀ c ∈ s.dueSteps, c = .abandon ∨ c = .enterMuted ∨ c = .recovery) ∧
    (s.ctl.state ≠ .offline → s.dueSteps = [] →
      let idle := if s.frameInProgress = true ∨ 0 < s.line.dominantLeft then 0 else s.line.idleCount + 1
      ∃ t, step s = .next t ∧
        t.line = { s.line with idleCount := idle, rx := if s.line.rx.isHeld = true ∧ 6 ≤ idle then .empty else s.line.rx,
                               dominantLeft := if s.frameInProgress then s.line.dominantLeft else s.line.dominantLeft - 1 } ∧
        s.ctl.joinWait.afterSlot s.slotUs t.ctl.joinWait ∧ s.lease.heartbeat.afterSlot s.slotUs t.lease.heartbeat ∧
        s.sync.retry.afterSlot s.slotUs t.sync.retry ∧
        (∀ x : Station, t.lease.remaining[x] =
          if s.leaseRunning x = true ∧ s.slotUs < s.lease.remaining[x] then s.lease.remaining[x] - s.slotUs else s.lease.remaining[x]) ∧
        t.req.contexts.length = s.req.contexts.length ∧
        (∀ (k : Nat) (c d : Context), s.req.contexts[k]? = some c → t.req.contexts[k]? = some d →
          d = { c with waitTimer := d.waitTimer } ∧ (c.state = .done → d = c) ∧
          (c.state ≠ .done → c.waitTimer.afterSlot s.slotUs d.waitTimer)) ∧
        t = { s with line := t.line, ctl := { s.ctl with joinWait := t.ctl.joinWait }, sync := { s.sync with retry := t.sync.retry },
                     lease := { s.lease with heartbeat := t.lease.heartbeat, remaining := t.lease.remaining },
                     req := { s.req with contexts := t.req.contexts }, pending := t.pending } ∧
        ((.joinWaitElapsed ∈ t.pending ↔ s.ctl.joinWait.dueIn s.slotUs) ∧
          (∀ x : Station, .leaseExpired x ∈ t.pending ↔ s.leaseRunning x = true ∧ s.lease.remaining[x] ≤ s.slotUs) ∧
          (.heartbeatDue ∈ t.pending ↔ s.lease.heartbeat.dueIn s.slotUs) ∧ (.retryTimerExpiry ∈ t.pending ↔ s.sync.retry.dueIn s.slotUs) ∧
          (∀ tag : Byte, .waitTimerExpiry tag ∈ t.pending ↔
            ∃ c ∈ s.req.contexts, c.tag = tag ∧ c.state ≠ .done ∧ c.waitTimer.dueIn s.slotUs) ∧
          (.roundEnd ∈ t.pending ↔ idle = 12) ∧ (.holdTimeout ∈ t.pending ↔ s.cont.hold ≠ none ∧ 40 ≤ idle) ∧
          (.offer ∈ t.pending ↔ 6 ≤ idle) ∧
          ∀ c ∈ t.pending, c = .joinWaitElapsed ∨ (∃ x, c = .leaseExpired x) ∨ c = .heartbeatDue ∨ c = .retryTimerExpiry ∨
            (∃ tag, c = .waitTimerExpiry tag) ∨ c = .roundEnd ∨ c = .holdTimeout ∨ c = .offer))

/-- No command faults or is refused (DEDUCED, log entry 21: the spec names no stop of the part), and none touches the queue, HARDWARE_RESET
and RESTART among them (DESIGN CHOICE, log entry 20: what waits is still to come). -/
def Obligations.EveryCommandAnswersANextStateAndLeavesTheQueue : Prop :=
  ∀ (c : Instr) (s : State), ∃ t, exec c s = .next t ∧ t.pending = s.pending

/-! ### Resets -/

/-- R3. Hardware reset, RESTART and every entry into an end state leave the replica in the empty form. -/
def Obligations.ReplicaIsEmptyAfterResetRestartAndDiscard : Prop :=
  (∀ straps s, ∃ t, exec (.hardwareReset straps) s = .next t ∧ t.replica.isEmptyForm) ∧
  (∀ (after : Nat) (s : State), s.ctl.state ≠ .offline → ∃ t, exec (.restart (.clocked after)) s = .next t ∧ t.replica.isEmptyForm) ∧
  (∀ c s t, exec c s = .next t → s.ctl.state.ended = false → t.ctl.state.ended = true → t.replica.isEmptyForm)

/-- HARDWARE_RESET: every block at the reset values of its table. The level of the claim line is not the part's and stays (log entry 24). -/
def Obligations.HardwareResetGivesEveryBlockItsResetValues : Prop :=
  ∀ straps s, ∃ t, exec (.hardwareReset straps) s = .next t ∧
    (t.port.config = Vector.replicate 195 0#8 ∧ t.port.locked = false ∧ t.port.digest = 0#16 ∧ t.port.flags = 0#16 ∧
      t.port.masks = 0#16 ∧ t.port.notice = false ∧ t.port.selected = none ∧ t.port.capture = none) ∧
    (t.ctl.state = .offline ∧ t.ctl.number.val = straps.toNat ∧ t.ctl.joinWait = .stopped ∧ t.ctl.heardState = false ∧
      t.ctl.rejectCount = 0 ∧ t.ctl.cleanCount = 0) ∧
    (t.line.idleCount = 0 ∧ t.line.rx = .empty ∧ t.line.checkAcc = 0xFFFF#16 ∧ t.line.answer = none ∧ t.line.overrun = false ∧
      t.line.dominantLeft = s.line.dominantLeft) ∧
    (t.cont.sendList = [] ∧ t.cont.joinPending = false ∧ t.cont.leavePending = false ∧ t.cont.syncReqPending = false ∧
      t.cont.heartbeatDue = false ∧ t.cont.trainIntent = false ∧ t.cont.attempts = .zero ∧ t.cont.turnUsed = false ∧
      t.cont.hold = none ∧ t.cont.silent = false ∧ t.cont.offer = none) ∧
    t.replica.isEmptyForm ∧
    ((∀ x : Station, t.lease.remaining[x] = 0) ∧ t.lease.reapSet = 0#16 ∧ t.lease.heartbeat = .stopped) ∧
    (t.sync.phase = .none ∧ t.sync.cursor = 0 ∧ t.sync.sendCheck = 0xFFFF#16 ∧ t.sync.shadow = none ∧ t.sync.retry = .stopped) ∧
    (t.req.contexts = [] ∧ t.req.queue = []) ∧ t.intnLow = false

/-- R166. The strap number is sampled by hardware reset, kept by everything else, and READ_STATUS reports it in every state. -/
def Obligations.StationNumberIsTheStrapsUntilTheNextReset : Prop :=
  (∀ straps s, ∃ t, exec (.hardwareReset straps) s = .next t ∧ t.ctl.number.val = straps.toNat) ∧
  (∀ c s t, (∀ straps, c ≠ .hardwareReset straps) → exec c s = .next t → t.ctl.number = s.ctl.number) ∧
  (∀ s : State, s.pending = [] → ∃ t, step s = .next t ∧ t.ctl.number = s.ctl.number) ∧
  (∀ (after : Nat) (s : State), 2 ≤ after → ∃ t, exec (.readStatus (.clocked after)) s = .next t ∧
    t.port.sdo[2]? = some (BitVec.ofNat 8 s.ctl.number.val))

/-- R174. The port state after hardware reset, RESTART and REJOIN, with the values READ_STATUS reports from other blocks. -/
def Obligations.PortStateAfterEachReset : Prop :=
  (∀ straps s, ∃ t, exec (.hardwareReset straps) s = .next t ∧ t.port.config = Vector.replicate 195 0#8 ∧ t.port.locked = false ∧
    t.port.digest = 0#16 ∧ t.port.flags = 0#16 ∧ t.port.masks = 0#16 ∧ t.port.notice = false ∧
    t.ctl.state = .offline ∧ t.ctl.rejectCount = 0 ∧ t.ctl.number.val = straps.toNat ∧
    t.req.contexts = [] ∧ t.req.queue = [] ∧ t.replica.isEmptyForm) ∧
  (∀ (after : Nat) (s : State), s.ctl.state ≠ .offline → ∃ t, exec (.restart (.clocked after)) s = .next t ∧ t.port.config = s.port.config ∧
    t.port.locked = s.port.locked ∧ t.port.digest = s.port.digest ∧ t.port.flags = 0#16 ∧ t.port.masks = s.port.masks ∧
    t.port.notice = s.port.notice ∧ t.ctl.state = .listening ∧ t.ctl.rejectCount = 0 ∧ t.ctl.number = s.ctl.number ∧
    t.req.contexts = [] ∧ t.req.queue = [] ∧ t.replica.isEmptyForm) ∧
  (∀ (after : Nat) (s : State), ∃ t, exec (.rejoin (.clocked after)) s = .next t ∧ t.port.config = s.port.config ∧ t.port.locked = s.port.locked ∧
    t.port.digest = s.port.digest ∧ t.port.flags = s.port.flags ∧ t.port.masks = s.port.masks ∧ t.port.notice = s.port.notice ∧
    (s.ctl.state.ended = true → t.ctl.state = .listening ∧ t.ctl.rejectCount = 0) ∧ t.ctl.number = s.ctl.number ∧
    t.req = s.req ∧ t.replica = s.replica)

/-! ### Port reads -/

/-- READ_STATUS shifts out Table 9-4, as far as the host clocks it, and changes nothing else. The bytes stand in the model's record of SDO
(DESIGN CHOICE, log entry 11). -/
def Obligations.ReadStatusReturnsTheThirtyBytes : Prop :=
  ∀ s : State, (∀ after : Nat, exec (.readStatus (.clocked after)) s = .next (s.shifted 0 after s.statusBytes none)) ∧ s.statusBytes.length = 30 ∧
    s.statusBytes.take 14 =
      [s.ctl.state.code, BitVec.ofNat 8 s.ctl.number.val, hiByte s.replica.sequence, loByte s.replica.sequence,
        hiByte s.port.digest, loByte s.port.digest, BitVec.ofNat 8 s.req.contexts.length, BitVec.ofNat 8 s.req.queue.length,
        hiByte s.port.flags, loByte s.port.flags, hiByte s.port.masks, loByte s.port.masks,
        (if s.summary then 0x80#8 else 0#8) ||| (if s.port.notice then 1#8 else 0#8), BitVec.ofNat 8 s.ctl.rejectCount] ∧
    (∀ (k : Nat) (c : Context), k < 8 → s.req.contexts[k]? = some c →
      s.statusBytes[14 + 2 * k]? = some (c.state.code ||| (if c.marked then 0x08#8 else 0#8)) ∧
      s.statusBytes[15 + 2 * k]? = some c.tag) ∧
    (∀ k : Nat, s.req.contexts.length ≤ k → k < 8 → s.statusBytes[14 + 2 * k]? = some 0#8 ∧ s.statusBytes[15 + 2 * k]? = some 0#8)

/-- READ_ENTRY shifts out the 40 bytes of Table 9-5 and changes nothing else: below TABLE_SIZE the replica's entry as a
SNAP_ENTRY would carry it, with VALID in IN_STEP and LEAVING; at or above it the empty form with OUT_OF_RANGE and the index as
sent. READ_ROSTER shifts out the seven bytes of Table 9-6 and changes nothing else. -/
def Obligations.ReadEntryAndRosterReturnTheReplica : Prop :=
  (∀ (index : Byte) (s : State), (∀ after : Nat, exec (.readEntry index (.clocked after)) s = .next (s.shifted 1 after (s.entryBytes index) none)) ∧
    (s.entryBytes index).length = 40 ∧
    (index.toNat < s.tableSize → (s.replica.entry index.toNat).waiters.length ≤ 15 →
      s.entryBytes index =
        [if s.ctl.state = .inStep ∨ s.ctl.state = .leaving then 1#8 else 0#8] ++
          ((s.replica.entry index.toNat).claimState.recordBytes index ++
            List.replicate (36 - ((s.replica.entry index.toNat).claimState.recordBytes index).length) 0#8) ++
          wordBytes (s.replica.entry index.toNat).permit ++ [if (s.replica.entry index.toNat).sharedOk then 1#8 else 0#8]) ∧
    (s.tableSize ≤ index.toNat → s.entryBytes index = [2#8, index] ++ List.replicate 38 0#8)) ∧
  (∀ s : State, ∃ r : List Byte, (∀ after : Nat, exec (.readRoster (.clocked after)) s =
      .next (s.shifted 0 after ([if s.ctl.state = .inStep ∨ s.ctl.state = .leaving then 1#8 else 0#8] ++ r ++ wordBytes s.replica.sequence) none)) ∧
    r.length = 4 ∧ ∀ x : Station, ((bytesBits r).drop (2 * x.val)).take 2 = fieldBits (s.replica.membership x).code)

/-- TAKE captures and shifts out the head record, or the empty indication, and removes nothing; TAKE_RECORD_REMOVAL, after a TAKE whose
nine bytes were all clocked out, then removes that record and frees its context. After a TAKE of an empty queue, or one whose CSn rose
before its last byte, it changes nothing. -/
def Obligations.TakeReturnsTheHeadAndItsEndRemovesIt : Prop :=
  (∀ (after : Nat) (s : State), s.req.queue = [] → exec (.take (.clocked after)) s = .next (s.shifted 0 after (List.replicate 9 0#8) none)) ∧
  (∀ (after : Nat) (s : State) (r : CompletionRecord) (rs : List CompletionRecord), s.req.queue = r :: rs →
    exec (.take (.clocked after)) s = .next (s.shifted 0 after (1#8 :: r.bytes) (if 9 ≤ after then some r else none))) ∧
  (∀ (s : State) (r : CompletionRecord) (rs : List CompletionRecord), s.req.queue = r :: rs → s.port.capture = some r → s.requestLaw →
    ∃ t, exec .takeRecordRemoval s = .next t ∧ t.req.queue = rs ∧
      t.req.contexts = (s.req.contexts.filter fun c => c.tag != r.tag) ∧ t.req.contexts.length + 1 = s.req.contexts.length ∧
      t = { s with req := t.req, port := { s.port with capture := none } }) ∧
  (∀ s : State, s.port.capture = none → exec .takeRecordRemoval s = .next s)

/-! ### SUBMIT and CANCEL -/

/-- A record that passes the checks of Table 8-2 opens a QUEUED_LOCAL context behind the others, starts its wait timer and adds
its frame at the tail of the send list; nothing else changes. One that fails is answered with the status of the first check that fails, in
the order of Table 8-2, and changes nothing. -/
def Obligations.SubmitOpensAContextOrReturnsTheFirstFailingCheck : Prop :=
  (∀ (r : RequestRecord) (k : RequestKind) (after : Nat) (s : State),
    (s.ctl.state = .inStep ∨ s.ctl.state = .outOfStep ∨ s.ctl.state = .syncing ∨ s.ctl.state = .muted) →
    requestKind r.kind = some k → (k = .claim → (requestMode r.mode).isSome = true) → r.resource.toNat < s.tableSize →
    (∀ c ∈ s.req.contexts, c.tag ≠ r.tag) → s.req.contexts.length < 8 →
    exec (.submit r (.clocked after)) s = .next
      { s with
        port := { s.port with selected := none, sdo := s.sdoOf 8 after [0x00#8], capture := none },
        req := { s.req with contexts := s.req.contexts ++
          [{ tag := r.tag, kind := k, mode := if k = .claim then requestMode r.mode else none, resource := r.resource,
             waitLimit := r.waitLimit, state := .queuedLocal, cause := .none, withdrawPhase := .none,
             waitTimer := if r.waitLimit = 0#16 ∨ r.waitLimit = 0xFFFF#16 then .stopped else .running (r.waitLimit.toNat * 1000) }] },
        cont := { s.cont with sendList := s.cont.sendList ++
          [{ kind := k.sendKind, tag := r.tag, resource := r.resource,
             mode := if k = .claim then (requestMode r.mode).getD .excl else .excl,
             mayWait := k == .claim && r.waitLimit != 0#16, attempts := 0, carried := false }] } }) ∧
  (∀ (r : RequestRecord) (after : Nat) (s : State),
    let notMember := ¬ (s.ctl.state = .inStep ∨ s.ctl.state = .outOfStep ∨ s.ctl.state = .syncing ∨ s.ctl.state = .muted)
    let badRequest := requestKind r.kind = none ∨ (requestKind r.kind = some .claim ∧ requestMode r.mode = none)
    let badResource := s.tableSize ≤ r.resource.toNat
    let tagInUse := ∃ c ∈ s.req.contexts, c.tag = r.tag
    let noContext := 8 ≤ s.req.contexts.length
    let answers := fun code : Byte => exec (.submit r (.clocked after)) s = .next (s.shifted 8 after [code] none)
    (notMember → answers 0x01#8) ∧
    (¬ notMember → badRequest → answers 0x02#8) ∧
    (¬ notMember → ¬ badRequest → badResource → answers 0x03#8) ∧
    (¬ notMember → ¬ badRequest → ¬ badResource → tagInUse → answers 0x04#8) ∧
    (¬ notMember → ¬ badRequest → ¬ badResource → ¬ tagInUse → noContext → answers 0x05#8))

/-- CANCEL is taken for a context in the states R146 lists and acts as Table 8-6 gives with CANCELLED: an entry that is removed in its
arbitration field stops driving, and a frame past arbitration runs on. A TRANSMITTING CLAIM that is marked already keeps its cause; in
every other case CANCEL answers NOT_PENDING and changes nothing. WAIT_TIMER_EXPIRY of a running wait timer records TIMED_OUT and acts as
Table 8-6 gives, in the same way. -/
def Obligations.CancelAndExpiryActByTheContextState : Prop :=
  ((∀ (after : Nat) (s : State) (c : Context), s.requestLaw → c ∈ s.req.contexts → c.cause = .none →
    (c.state = .queuedLocal ∨ c.state = .contending ∨ c.state = .waiting ∨ (c.state = .transmitting ∧ c.kind = .claim)) →
    ∃ t, exec (.cancel c.tag (.clocked after)) s = .next t ∧
      t.port = { s.port with selected := none, sdo := s.sdoOf 1 after [0x00#8], capture := none } ∧ s.endedByCause t c .cancelled .cancelled) ∧
  (∀ (after : Nat) (s : State) (c : Context), s.requestLaw → c ∈ s.req.contexts → c.cause ≠ .none → c.state = .transmitting → c.kind = .claim →
    ∃ t, exec (.cancel c.tag (.clocked after)) s = .next t ∧
      t.port = { s.port with selected := none, sdo := s.sdoOf 1 after [0x00#8], capture := none } ∧
      t.req.queue = s.req.queue ∧ t.req.find c.tag = some { c with waitTimer := .stopped } ∧ t.cont = s.cont) ∧
  (∀ (after : Nat) (s : State) (tag : Byte),
    (∀ c : Context, s.req.find tag = some c →
      c.state = .done ∨ c.state = .withdrawing ∨ (c.state = .transmitting ∧ c.kind ≠ .claim)) →
    exec (.cancel tag (.clocked after)) s = .next (s.shifted 1 after [0x06#8] none))) ∧
  (∀ (s : State) (c : Context) (us : Nat), s.requestLaw → c ∈ s.req.contexts → c.cause = .none → c.waitTimer = .running us →
    (c.state = .queuedLocal ∨ c.state = .contending ∨ c.state = .waiting ∨ c.state = .transmitting) →
    ∃ t, exec (.waitTimerExpiry c.tag) s = .next t ∧ t.port = s.port ∧ s.endedByCause t c .timedOut .timedOut)

/-! ### Flags, masks, configuration, station control -/

/-- CLEAR_FLAGS clears the flags whose mask bits are 1 and leaves the others, nothing else changes, and INTn is then low exactly
while a flag is set under its mask bit, or a completion waits with the notice enabled. -/
def Obligations.ClearFlagsClearsTheMaskedFlags : Prop :=
  ∀ (mask : Word) (after : Nat) (s : State), ∃ t, exec (.clearFlags mask (.clocked after)) s = .next t ∧
    (∀ f : EventFlag, t.port.flag f = (s.port.flag f && !mask.getLsbD f.bit)) ∧
    (t.intnLow = true ↔ (∃ f : EventFlag, t.port.flag f = true ∧ t.port.masks.getLsbD f.bit = true) ∨ (t.port.notice = true ∧ t.req.queue ≠ [])) ∧
    t = { s with port := { s.port with flags := t.port.flags, selected := none, sdo := s.sdoOf 2 after [0x00#8], capture := none } }

/-- R172. WRITE_MASKS replaces masks and notice enable in every state; SUMMARY is a set flag under a set mask bit; masks and
notice are 0 after hardware reset and kept by RESTART and REJOIN. -/
def Obligations.MasksEnableFlagsForSummary : Prop :=
  (∀ (m : Word) (n : Byte) (after : Nat) (s : State), ∃ t, exec (.writeMasks m n (.clocked after)) s = .next t ∧
    t = { s with port := { s.port with masks := m, notice := n.getLsbD 0, selected := none, sdo := s.sdoOf 3 after [0x00#8], capture := none } }) ∧
  (∀ s : State, s.summary = true ↔ ∃ f : EventFlag, s.port.flag f = true ∧ s.port.masks.getLsbD f.bit = true) ∧
  (∀ straps s, ∃ t, exec (.hardwareReset straps) s = .next t ∧ t.port.masks = 0#16 ∧ t.port.notice = false) ∧
  (∀ (after : Nat) (s : State), ∃ t, exec (.restart (.clocked after)) s = .next t ∧ t.port.masks = s.port.masks ∧ t.port.notice = s.port.notice) ∧
  (∀ (after : Nat) (s : State), ∃ t, exec (.rejoin (.clocked after)) s = .next t ∧ t.port.masks = s.port.masks ∧ t.port.notice = s.port.notice)

/-- WRITE_CONFIG writes its bytes together in OFFLINE, answers BAD_OFFSET or WRONG_STATE without effect, and writes nothing when
cut short. -/
def Obligations.WriteConfigWritesTheBlockWhileOffline : Prop :=
  ∀ (offset count : Byte) (data : List Byte) (after : Nat) (s : State), data.length = count.toNat →
    (s.ctl.state = .offline → 1 ≤ count.toNat → offset.toNat + count.toNat ≤ 195 →
      ∃ t, exec (.writeConfig offset count data (.clocked after)) s = .next t ∧
        (∀ i : Nat, offset.toNat ≤ i → i < offset.toNat + count.toNat → t.port.config[i]? = data[i - offset.toNat]?) ∧
        (∀ i : Nat, i < offset.toNat ∨ offset.toNat + count.toNat ≤ i → t.port.config[i]? = s.port.config[i]?) ∧
        t = { s with port := { s.port with config := t.port.config, selected := none, sdo := s.sdoOf (2 + count.toNat) after [0x00#8], capture := none } }) ∧
    (s.ctl.state = .offline → count.toNat = 0 ∨ 195 < offset.toNat + count.toNat →
      exec (.writeConfig offset count data (.clocked after)) s = .next (s.shifted (2 + count.toNat) after [0x08#8] none)) ∧
    (s.ctl.state ≠ .offline → exec (.writeConfig offset count data (.clocked after)) s = .next (s.shifted (2 + count.toNat) after [0x07#8] none)) ∧
    (∀ n : Nat, n < count.toNat → 
      exec (.writeConfig offset count (data.take n) (.clocked after)) s = .next (s.shifted (2 + n) 0 [] none))

/-- START in OFFLINE checks the codes; a good block is locked, its digest computed, and the station listens for LEASE/2; a bad one
answers BAD_CONFIG; past START it answers WRONG_STATE. The level of the claim line is not the part's and stays (log entry 24). -/
def Obligations.StartLocksAGoodBlockAndListens : Prop :=
  ∀ (after : Nat) (s : State),
    let good := (s.port.configByte 0).toNat ≤ 3 ∧ (s.port.configByte 1).toNat ≤ 7 ∧ (s.port.configByte 2).toNat ≤ 2 ∧
      ∀ i : Nat, i < tableSizeOfCode (s.port.configByte 2) → (s.port.configByte (5 + 3 * i)).toNat ≤ 1
    (s.ctl.state = .offline → good → ∃ t, exec (.start (.clocked after)) s = .next t ∧
      t.port = { s.port with locked := true, digest := checkBytes 0xFFFF#16 s.port.digestBytes, selected := none, sdo := s.sdoOf 0 after [0x00#8], capture := none } ∧
      t.ctl.state = .listening ∧ t.ctl.joinWait = .running (25000 * 2 ^ (s.port.configByte 1).toNat / 2) ∧ t.ctl.heardState = false ∧
      t.ctl.rejectCount = 0 ∧ t.ctl.number = s.ctl.number ∧
      t.line = { idleCount := 0, rx := .empty, checkAcc := 0xFFFF#16, answer := none, overrun := false, dominantLeft := s.line.dominantLeft } ∧
      t.replica = s.replica ∧ t.lease = s.lease ∧ t.sync = s.sync ∧ t.req = s.req) ∧
    (s.ctl.state = .offline → ¬ good → exec (.start (.clocked after)) s = .next (s.shifted 0 after [0x09#8] none)) ∧
    (s.ctl.state ≠ .offline → exec (.start (.clocked after)) s = .next (s.shifted 0 after [0x07#8] none))

/-- Port LEAVE in IN_STEP: LEAVING with LEAVE pending, the effects of leaving IN_STEP, and every QUEUED_LOCAL or CONTENDING context
completed ABANDONED with its entry removed, and no other context touched; the other entries stay in their order, those whose frame is past
arbitration as carried frames. An offer still in its arbitration field stops if its entry was removed or its flag or set cleared; every
other offer runs on, a WITHDRAW still in its arbitration field among them (DEDUCED, log entry 17). The replica stays, and so does the port
but for the answer ACCEPTED. In every other state WRONG_STATE. -/
def Obligations.PortLeaveEntersLeaving : Prop :=
  (∀ (after : Nat) (s : State), s.ctl.state = .inStep → ∃ t, exec (.portLeave (.clocked after)) s = .next t ∧ t.ctl = { s.ctl with state := .leaving } ∧
    t.port = { s.port with selected := none, sdo := s.sdoOf 0 after [0x00#8], capture := none } ∧
    t.cont = { s.cont with leavePending := true, heartbeatDue := false, trainIntent := false,
                           attempts := { s.cont.attempts with train := 0, leave := 0, heartbeat := 0, reap := 0, reapTarget := none },
                           sendList := t.cont.sendList, offer := t.cont.offer } ∧
    (∀ x : Station, t.lease.remaining[x] = 0) ∧ t.lease.reapSet = 0#16 ∧ t.lease.heartbeat = .stopped ∧
    t.sync = { s.sync with phase := .none, cursor := 0, sendCheck := 0xFFFF#16 } ∧ t.replica = s.replica ∧ t.line = s.line ∧
    t.req.contexts = s.req.contexts.map (fun c => if c.state = .queuedLocal ∨ c.state = .contending then c.done else c) ∧
    t.req.queue = s.req.queue ++ (s.req.contexts.filter fun c => c.state == .queuedLocal || c.state == .contending).map
      (fun c => { tag := c.tag, kind := c.kind, mode := c.mode, tooLate := false, result := .abandoned, resource := c.resource, generation := 0#16, sequence := 0#16 }) ∧
    (∀ unsent : Byte → Bool, unsent = (fun tag => s.req.contexts.any fun c => c.tag == tag && (c.state == .queuedLocal || c.state == .contending)) →
      t.cont.sendList = ((s.cont.sendList.filter fun e => !unsent e.tag).map fun e =>
        { e with carried := s.cont.offer.any fun o => o.phase != .arbitrating && o.source == .entry e.tag }) ∧
      (∀ o : Offer, s.cont.offer = some o → o.phase ≠ .arbitrating → t.cont.offer = some o) ∧
      (∀ o : Offer, s.cont.offer = some o → o.phase = .arbitrating →
        (∀ tag : Byte, o.source = .entry tag → t.cont.offer = if unsent tag then none else some o) ∧
        (o.source = .train ∨ o.source = .heartbeat ∨ o.source = .leave ∨ (∃ x : Station, o.source = .reap x) → t.cont.offer = none) ∧
        (o.source = .join ∨ o.source = .syncReq → t.cont.offer = some o)) ∧
      (s.cont.offer = none → t.cont.offer = none))) ∧
  (∀ (after : Nat) (s : State), s.ctl.state ≠ .inStep → exec (.portLeave (.clocked after)) s = .next (s.shifted 0 after [0x07#8] none))

/-- REJOIN from an end state and RESTART from every state after START answer ACCEPTED and listen for LEASE/2. REJOIN keeps the rest
of the port, the request, lease and sync units, the line and the contention unit, but for a JOIN of before: its flag and its count are
cleared, and its offer if it is still in the arbitration field. RESTART clears the flags and
returns every block to its values after RESTART, field by field; of the port it keeps the rest, and the level of the claim line is not the part's
and stays (log entry 24). In every other state each answers WRONG_STATE without effect. -/
def Obligations.RejoinAndRestartListenAgain : Prop :=
  (∀ (after : Nat) (s : State), s.ctl.state = .departed ∨ s.ctl.state = .evicted ∨ s.ctl.state = .refused →
    ∃ t, exec (.rejoin (.clocked after)) s = .next t ∧
    t.ctl = { s.ctl with state := .listening, joinWait := .running (s.leaseUs / 2), heardState := false, rejectCount := 0 } ∧
    t.port = { s.port with selected := none, sdo := s.sdoOf 0 after [0x00#8], capture := none } ∧ t.replica = s.replica ∧ t.req = s.req ∧
    t.lease = s.lease ∧ t.sync = s.sync ∧ t.line = s.line ∧
    t.cont = { s.cont with joinPending := false, attempts := { s.cont.attempts with join := 0 }, offer := t.cont.offer } ∧
    (s.cont.offer = none → t.cont.offer = none) ∧
    (∀ o : Offer, s.cont.offer = some o → t.cont.offer = if o.source = .join ∧ o.phase = .arbitrating then none else some o)) ∧
  (∀ (after : Nat) (s : State), ¬ (s.ctl.state = .departed ∨ s.ctl.state = .evicted ∨ s.ctl.state = .refused) →
    exec (.rejoin (.clocked after)) s = .next (s.shifted 0 after [0x07#8] none)) ∧
  (∀ (after : Nat) (s : State), s.ctl.state ≠ .offline → ∃ t, exec (.restart (.clocked after)) s = .next t ∧
    t.ctl = { s.ctl with state := .listening, joinWait := .running (s.leaseUs / 2), heardState := false, rejectCount := 0, cleanCount := 0 } ∧
    t.port = { s.port with flags := 0#16, selected := none, sdo := s.sdoOf 0 after [0x00#8], capture := none } ∧
    t.replica.isEmptyForm ∧
    t.line = { idleCount := 0, rx := .empty, checkAcc := 0xFFFF#16, answer := none, overrun := false, dominantLeft := s.line.dominantLeft } ∧
    t.cont = { sendList := [], joinPending := false, leavePending := false, syncReqPending := false, heartbeatDue := false, trainIntent := false,
               attempts := { train := 0, syncReq := 0, join := 0, leave := 0, heartbeat := 0, reap := 0, reapTarget := none },
               turnUsed := false, hold := none, silent := false, offer := none } ∧
    t.lease = { remaining := Vector.replicate 16 0, reapSet := 0#16, heartbeat := .stopped } ∧
    t.sync = { phase := .none, cursor := 0, sendCheck := 0xFFFF#16, shadow := none, retry := .stopped } ∧
    t.req = { contexts := [], queue := [] }) ∧
  (∀ (after : Nat) (s : State), s.ctl.state = .offline → exec (.restart (.clocked after)) s = .next (s.shifted 0 after [0x07#8] none))

/-- The first byte on SDI is the code of Table 9-1: it spells the command and how many bytes are its input, a code that is not in the
table and input that ends before it is whole have their own commands, and bytes beyond the input are not examined. CSn falling samples
the header byte and changes nothing else but a TAKE not finished before it. A transaction with an unknown code gets FFh for every byte
after the header, one cut short gets 00h; neither changes the part. The bytes stand in
the model's record of SDO (DESIGN CHOICE, log entry 11). -/
def Obligations.FirstByteSpellsTheTransactionAndUntakenOnesChangeNothing : Prop :=
  (∀ r : List Byte,
    transactionOf (0x01#8 :: r) = .readStatus (.clocked r.length) ∧ transactionOf (0x03#8 :: r) = .readRoster (.clocked r.length) ∧
    transactionOf (0x04#8 :: r) = .take (.clocked r.length) ∧ transactionOf (0x21#8 :: r) = .start (.clocked r.length) ∧
    transactionOf (0x22#8 :: r) = .portLeave (.clocked r.length) ∧ transactionOf (0x23#8 :: r) = .rejoin (.clocked r.length) ∧
    transactionOf (0x24#8 :: r) = .restart (.clocked r.length) ∧
    (∀ a : Byte, transactionOf (0x02#8 :: a :: r) = .readEntry a (.clocked r.length) ∧
      transactionOf (0x11#8 :: a :: r) = .cancel a (.clocked r.length)) ∧
    (∀ a b : Byte, transactionOf (0x12#8 :: a :: b :: r) = .clearFlags (a ++ b) (.clocked r.length)) ∧
    (∀ a b c : Byte, transactionOf (0x13#8 :: a :: b :: c :: r) = .writeMasks (a ++ b) c (.clocked r.length)) ∧
    (∀ k m res tag w1 w0 u1 u0 : Byte, transactionOf (0x10#8 :: k :: m :: res :: tag :: w1 :: w0 :: u1 :: u0 :: r) =
      .submit { kind := k, mode := m, resource := res, tag := tag, waitLimit := w1 ++ w0, unused := u1 ++ u0 } (.clocked r.length)) ∧
    (∀ (offset count : Byte) (data : List Byte), data.length = count.toNat →
      transactionOf (0x20#8 :: offset :: count :: (data ++ r)) = .writeConfig offset count data (.clocked r.length))) ∧
  (∀ (code : Byte) (rest : List Byte),
    code ∉ [0x01#8, 0x02#8, 0x03#8, 0x04#8, 0x10#8, 0x11#8, 0x12#8, 0x13#8, 0x20#8, 0x21#8, 0x22#8, 0x23#8, 0x24#8] →
    transactionOf (code :: rest) = .unknownTransactionCode code (.clocked rest.length)) ∧
  (∀ bytes : List Byte, cutShort bytes = true → transactionOf bytes = .transactionCutShort bytes (.clocked 0)) ∧
  (∀ (c fall : Instr) (s : State), c.wellFormed = true → Instr.atCsnFall c = some fall →
    exec fall s = .next { s with port := { s.port with selected := some s.header, capture := none } }) ∧
  (∀ (code : Byte) (after : Nat) (s : State),
    code ∉ [0x01#8, 0x02#8, 0x03#8, 0x04#8, 0x10#8, 0x11#8, 0x12#8, 0x13#8, 0x20#8, 0x21#8, 0x22#8, 0x23#8, 0x24#8] →
    exec (.unknownTransactionCode code (.clocked after)) s = .next (s.shifted 0 after (List.replicate after 0xFF#8) none)) ∧
  (∀ (code : Byte) (rest : List Byte) (after : Nat) (s : State), cutShort (code :: rest) = true →
    exec (.transactionCutShort (code :: rest) (.clocked after)) s = .next (s.shifted rest.length 0 [] none)) ∧
  (∀ (after : Nat) (s : State), exec (.transactionCutShort [] (.clocked after)) s =
    .next { s with port := { s.port with selected := none, sdo := [], capture := none } })

/-! ### Contention -/

/-- OFFER begins the chosen frame when no frame is in progress, the idle count is START_GAP or more, no hold by another station is in
force and the station is not silent: the offer is ARBITRATING, its start mark is on the line, a QUEUED_LOCAL context of a context frame is
CONTENDING, and the replica, the leases, the send list and the queue stay. Otherwise nothing begins and nothing changes. The clause on
nonceDraws is the model's own counter (log entry 5), and dominantLeft is the model's own level of the line (log entry 24). -/
def Obligations.OfferBeginsTheChosenFrame : Prop :=
  (∀ (s : State) (src : OfferSource) (f : TxFrame), s.ctl.state ≠ .offline → s.cont.offer = none → s.line.rx.isFilling = false →
    s.line.overrun = false → 6 ≤ s.line.idleCount → s.noIntrusionBy s.ctl.number → s.cont.silent = false → s.chooseOffer = some (src, f) →
    ∃ t, exec .offer s = .next t ∧ t.cont.offer = some { source := src, frame := f, phase := .arbitrating } ∧
      t.line = { idleCount := 0, rx := .filling [], checkAcc := 0xFFFF#16, answer := none, overrun := false, dominantLeft := s.line.dominantLeft } ∧
      (∀ (tag : Byte) (c : Context), src = .entry tag → s.req.find tag = some c → c.state = .queuedLocal →
        t.req.find tag = some { c with state := .contending }) ∧
      t.replica = s.replica ∧ t.lease = s.lease ∧ t.sync = s.sync ∧ t.port = s.port ∧ t.req.queue = s.req.queue ∧
      t.cont.sendList = s.cont.sendList ∧ t.cont.turnUsed = s.cont.turnUsed ∧ t.cont.hold = s.cont.hold ∧
      (src = .join → t.ctl.nonceDraws = s.ctl.nonceDraws + 1)) ∧
  (∀ s : State, (s.ctl.state = .offline ∨ s.cont.offer ≠ none ∨ s.line.rx.isFilling = true ∨ s.line.overrun = true ∨
    s.line.idleCount < 6 ∨ ¬ s.noIntrusionBy s.ctl.number ∨ s.cont.silent = true ∨ s.chooseOffer = none) → exec .offer s = .next s)

/-- The law of Table 4-2: the frame chosen is of a kind the station state allows, so no state frame other than JOIN outside IN_STEP
and LEAVING; its SEQ is the table sequence, or all ones in JOIN and service frames; CONT is 1 in SNAP_HEAD and SNAP_ENTRY alone; a
JOIN carries the local digest. And Tables 4-2 and 4-3 row by row, a ready frame being chosen and nothing without one: under the station's
own hold the next frame of its train alone; JOIN in JOINING; SYNC_REQ in SYNCING and OUT_OF_STEP; in IN_STEP the train's frame before all
else, then REAP for the lowest number of the reap set, then HEARTBEAT, then the oldest class 2 entry, then the oldest CLAIM; in LEAVING the
carried entries and LEAVE after the last of them; nothing in the other states. The nonce of a JOIN is a free value (log entry 5). That a frame whose count
stands at 16 waits for ABANDON, a step of its own, and lets the next row through, is DEDUCED (log entry 8). -/
def Obligations.ChosenFrameIsAllowedAndInOrder : Prop :=
  (∀ (s : State) (src : OfferSource) (f : TxFrame), s.chooseOffer = some (src, f) →
    (f.kind = .join → s.ctl.state = .joining ∧ f.body.length = 4 ∧ f.body.take 2 = wordBytes s.port.digest) ∧
    (f.kind = .syncReq → s.ctl.state = .syncing ∨ s.ctl.state = .outOfStep) ∧
    (f.kind = .leave → s.ctl.state = .leaving) ∧
    (f.kind = .snapHead ∨ f.kind = .snapEntry ∨ f.kind = .snapTail ∨ f.kind = .reap ∨ f.kind = .heartbeat → s.ctl.state = .inStep) ∧
    (f.kind.isState = true → f.kind ≠ .join → s.ctl.state = .inStep ∨ s.ctl.state = .leaving) ∧
    (f.kind.isState = true → f.kind ≠ .join → f.seq = s.replica.sequence) ∧
    (f.kind.isState = false ∨ f.kind = .join → f.seq = 0xFFFF#16) ∧
    (f.cont = true ↔ f.kind = .snapHead ∨ f.kind = .snapEntry) ∧
    (s.cont.turnUsed = true → f.kind.cls.toNat < 2) ∧
    (s.cont.hold = some s.ctl.number → f.kind = .snapEntry ∨ f.kind = .snapTail) ∧
    (∀ t : Station, src = .reap t → s.noTrainFrame ∧ s.lowestReap t ∧ f.body = [BitVec.ofNat 8 t.val]) ∧
    (src = .heartbeat → s.noTrainFrame ∧ s.lease.reapSet = 0#16) ∧
    (f.kind = .claim → ∀ e ∈ s.cont.sendList, e.kind ≠ .claim → s.ctl.state = .inStep ∨ e.carried = true → 16 ≤ e.attempts) ∧
    (∀ tag : Byte, src = .entry tag → s.ctl.state = .inStep → s.noTrainFrame ∧ s.noClassOne)) ∧
  (∀ s : State,
    let own := s.cont.hold = some s.ctl.number
    let entries := some (OfferSource.train, ({ kind := .snapEntry, cont := true, seq := 0xFFFF#16, body := s.entriesBody } : TxFrame))
    let tail := some (OfferSource.train, ({ kind := .snapTail, cont := false, seq := 0xFFFF#16, body := wordBytes s.sync.sendCheck } : TxFrame))
    (own → s.ctl.state = .inStep → s.cont.attempts.train < 16 →
      (s.sync.phase = .entries → s.chooseOffer = entries) ∧ (s.sync.phase = .tail → s.chooseOffer = tail)) ∧
    (own → s.ctl.state ≠ .inStep ∨ 16 ≤ s.cont.attempts.train ∨ s.sync.phase = .none ∨ s.sync.phase = .head → s.chooseOffer = none) ∧
    (s.ctl.state = .offline ∨ s.ctl.state = .listening ∨ s.ctl.state = .muted ∨ s.ctl.state = .departed ∨ s.ctl.state = .evicted ∨
      s.ctl.state = .refused → s.chooseOffer = none) ∧
    (¬ own → s.ctl.state = .joining →
      (s.cont.joinPending = true → s.cont.attempts.join < 16 → s.chooseOffer = some (.join,
        { kind := .join, cont := false, seq := 0xFFFF#16, body := wordBytes s.port.digest ++ wordBytes (Config.nonce s.ctl.nonceDraws) })) ∧
      (s.cont.joinPending = false ∨ 16 ≤ s.cont.attempts.join → s.chooseOffer = none)) ∧
    (¬ own → s.ctl.state = .syncing ∨ s.ctl.state = .outOfStep →
      (s.cont.syncReqPending = true → s.cont.attempts.syncReq < 16 → s.chooseOffer = some (.syncReq,
        { kind := .syncReq, cont := false, seq := 0xFFFF#16, body := [] })) ∧
      (s.cont.syncReqPending = false ∨ 16 ≤ s.cont.attempts.syncReq → s.chooseOffer = none)) ∧
    (¬ own → s.ctl.state = .inStep →
      (s.cont.attempts.train < 16 →
        (s.sync.phase = .head → s.cont.trainIntent = true → s.chooseOffer = some (.train,
          { kind := .snapHead, cont := true, seq := 0xFFFF#16, body := s.headFields.bytes })) ∧
        (s.sync.phase = .entries → s.chooseOffer = entries) ∧ (s.sync.phase = .tail → s.chooseOffer = tail)) ∧
      (s.noTrainFrame → ∀ x : Station, s.lowestReap x → (s.cont.attempts.reapTarget = some x → s.cont.attempts.reap < 16) →
        s.chooseOffer = some (.reap x, { kind := .reap, cont := false, seq := s.replica.sequence, body := [BitVec.ofNat 8 x.val] })) ∧
      (s.noTrainFrame → s.lease.reapSet = 0#16 → s.cont.heartbeatDue = true → s.cont.attempts.heartbeat < 16 →
        s.chooseOffer = some (.heartbeat, { kind := .heartbeat, cont := false, seq := s.replica.sequence, body := [] })) ∧
      (s.noTrainFrame → s.noClassOne → s.entryRows fun _ => True)) ∧
    (¬ own → s.ctl.state = .leaving →
      ((∀ e ∈ s.cont.sendList, e.carried = false) → s.cont.leavePending = true → s.cont.attempts.leave < 16 →
        s.chooseOffer = some (.leave, { kind := .leave, cont := false, seq := s.replica.sequence, body := [] })) ∧
      ((∃ e ∈ s.cont.sendList, e.carried = true) ∨ s.cont.leavePending = false ∨ 16 ≤ s.cont.attempts.leave →
        s.entryRows fun e => e.carried = true)))

/-- ARBITRATION_LOST in a slot of the arbitration field, CLASS and then STATION, that the offer drove recessive: the offer is over, the
slots sampled so far, the last one dominant, are in the receive buffer and the check accumulator, and nothing else changes. In a slot it
drove dominant, past the field, or without an offer in its field nothing changes. ARBITRATION_PASSED moves an offer to SENDING and its
context to TRANSMITTING, or a WITHDRAWING one's withdraw phase; the six slots have been sampled as driven. That an event told where it
cannot happen changes nothing is a DESIGN CHOICE (log entry 14). -/
def Obligations.ArbitrationEndsInLossOrSending : Prop :=
  (∀ (slot : Nat) (s : State) (o : Offer), s.cont.offer = some o → o.phase = .arbitrating →
    let field := fieldBits o.frame.kind.cls ++ fieldBits (stationBits s.ctl.number)
    let sampled := field.take slot ++ [false]
    (field[slot]? = some true → exec (.arbitrationLost slot) s = .next
      { s with cont := { s.cont with offer := none },
               line := { s.line with rx := .filling sampled, checkAcc := checkBits 0xFFFF#16 sampled } }) ∧
    (field[slot]? ≠ some true → exec (.arbitrationLost slot) s = .next s)) ∧
  (∀ (slot : Nat) (s : State), (∀ o : Offer, s.cont.offer = some o → o.phase ≠ .arbitrating) →
    exec (.arbitrationLost slot) s = .next s ∧ exec .arbitrationPassed s = .next s) ∧
  (∀ (s : State) (o : Offer), s.cont.offer = some o → o.phase = .arbitrating →
    let field := fieldBits o.frame.kind.cls ++ fieldBits (stationBits s.ctl.number)
    ∃ t, exec .arbitrationPassed s = .next t ∧ t.cont = { s.cont with offer := some { o with phase := .sending } } ∧
      t.line = { s.line with rx := .filling field, checkAcc := checkBits 0xFFFF#16 field } ∧
      (∀ (tag : Byte) (c : Context), o.source = .entry tag → s.req.find tag = some c →
        (c.state = .contending → t.req.find tag = some { c with state := .transmitting }) ∧
        (c.state = .withdrawing → t.req.find tag = some { c with withdrawPhase := .transmitting })) ∧
      t.req.queue = s.req.queue ∧ t = { s with cont := t.cont, req := t.req, line := t.line })

/-- A bit error, in a data slot past the arbitration field that the sender drove recessive, and REJECT dominant at the end of an own frame,
fail the attempt: the offer is cleared, the frame's own count and no other is one higher, the flag or the set of a station frame stays,
nothing is applied and no lease changes. Turn-used is set by a class 2 or 3 frame that reached its
answer slots, and not by a bit error. A bit error in the station's own JOIN makes it REFUSED with CLASH. In a slot that it drove dominant,
one of the arbitration field or one past CHECK, or with no frame of its own, there is no bit error and nothing changes, which is a DESIGN
CHOICE (log entry 14). That a count stops at 16 is DEDUCED (log entry 8). That with the bit error the frame has ended for its sender, the
receive buffer EMPTY and the idle count at zero, also where another card's frame goes on, is a DESIGN CHOICE (log entry 26). -/
def Obligations.FailedAttemptsAreCountedAndApplyNothing : Prop :=
  (∀ (s : State) (o : Offer) (slot : Nat), s.cont.offer = some o → o.phase = .sending → o.source ≠ .join →
    6 ≤ slot → (dataSlots (o.frame.raw s.ctl.number))[slot]? = some true →
    ∃ t, exec (.bitError slot) s = .next t ∧ t.cont.offer = none ∧ t.cont.turnUsed = s.cont.turnUsed ∧ t.replica = s.replica ∧
      t.lease = s.lease ∧ t.sync = s.sync ∧ t.ctl = s.ctl ∧ t.port = s.port ∧ t.line.idleCount = 0 ∧ t.line.rx = .empty ∧ t.line.answer = none ∧
      (∀ (tag : Byte) (c : Context), o.source = .entry tag → s.requestLaw → c ∈ s.req.contexts → c.tag = tag → s.attemptFailed t tag c) ∧
      s.failureCounted t o.source) ∧
  (∀ (s : State) (o : Offer) (slot : Nat), s.cont.offer = some o → o.source = .join →
    6 ≤ slot → (dataSlots (o.frame.raw s.ctl.number))[slot]? = some true →
    ∃ t, exec (.bitError slot) s = .next t ∧ t.ctl.state = .refused ∧ t.port.flag .clash = true ∧ t.cont.joinPending = false ∧ t.cont.offer = none) ∧
  (∀ (s : State) (slot : Nat),
    (∀ o : Offer, s.cont.offer = some o → slot < 6 ∨ (dataSlots (o.frame.raw s.ctl.number))[slot]? ≠ some true) →
    exec (.bitError slot) s = .next s) ∧
  (∀ (c : Instr) (k : FrameKind) (a : Answers) (s : State) (src : OfferSource) (f : TxFrame),
    Instr.ownFrame c = some (k, a) → s.sendsKind k src f → a.reject = true →
    ∃ t, exec c s = .next t ∧ t.cont.offer = none ∧ t.cont.turnUsed = (s.cont.turnUsed || decide (2 ≤ k.cls.toNat)) ∧
      t.replica = s.replica ∧ t.lease = s.lease ∧ t.sync = s.sync ∧ t.ctl = s.ctl ∧ t.port = s.port ∧ t.cont.hold = s.cont.hold ∧
      (∀ (tag : Byte) (c : Context), src = .entry tag → s.requestLaw → c ∈ s.req.contexts → c.tag = tag → s.attemptFailed t tag c) ∧
      s.failureCounted t src)

/-- ABANDON of the frame whose count has reached 16 sets MEDIUM_FAULT and acts as Table 4-6 gives for its owner; an abandoned LEAVE
completes every WAITING and WITHDRAWING context ABANDONED with sequence 0. That with no count at 16 the command changes nothing, and which of
several counts at 16 it takes, are DESIGN CHOICES (log entry 8). -/
def Obligations.AbandonReportsToTheFrameOwner : Prop :=
  (∀ s : State, s.abandonDue = none → exec .abandon s = .next s) ∧
  (∀ s : State, s.abandonDue = none ↔ s.cont.attempts.train < 16 ∧ s.cont.attempts.syncReq < 16 ∧ s.cont.attempts.join < 16 ∧
    s.cont.attempts.leave < 16 ∧ s.cont.attempts.heartbeat < 16 ∧
    (∀ x : Station, s.cont.attempts.reapTarget = some x → s.cont.attempts.reap < 16) ∧ ∀ e ∈ s.cont.sendList, e.attempts < 16) ∧
  (∀ (s : State) (src : OfferSource), s.abandonDue = some src →
    (src = .train → 16 ≤ s.cont.attempts.train) ∧ (src = .syncReq → 16 ≤ s.cont.attempts.syncReq) ∧ (src = .join → 16 ≤ s.cont.attempts.join) ∧
    (src = .leave → 16 ≤ s.cont.attempts.leave) ∧ (src = .heartbeat → 16 ≤ s.cont.attempts.heartbeat) ∧
    (∀ x : Station, src = .reap x → s.cont.attempts.reapTarget = some x ∧ 16 ≤ s.cont.attempts.reap) ∧
    (∀ tag : Byte, src = .entry tag → ∃ e ∈ s.cont.sendList, e.tag = tag ∧ 16 ≤ e.attempts)) ∧
  (∀ (s : State) (src : OfferSource), s.abandonDue = some src → ∃ t, exec .abandon s = .next t ∧ t.port.flag .mediumFault = true ∧
    (∀ (tag : Byte) (c : Context), src = .entry tag → s.requestLaw → c ∈ s.req.contexts → c.tag = tag → c.state ≠ .done →
      t.req.queue = s.req.queue ++ [c.record { result := .mediumFault, tooLate := false, generation := 0#16, sequence := 0#16 }] ∧
      t.cont.sendList = (s.cont.sendList.filter fun e => e.tag != tag) ∧ t.replica = s.replica ∧ t.ctl = s.ctl) ∧
    (src = .heartbeat → t.cont.heartbeatDue = false ∧ (s.ctl.state = .inStep → t.lease.heartbeat = .running (s.leaseUs / 4))) ∧
    (∀ x : Station, src = .reap x → t.lease.reapSet = s.lease.reapSet ∧ t.cont.attempts.reap = 0) ∧
    (src = .join → s.ctl.state = .joining → t.ctl.state = .listening ∧ t.cont.joinPending = false ∧ t.ctl.joinWait = .running (s.leaseUs / 2)) ∧
    (src = .leave → s.ctl.state = .leaving → t.ctl.state = .departed ∧ t.replica.isEmptyForm ∧ t.cont.sendList = [] ∧
      t.req.queue = s.req.queue ++ (s.req.contexts.filter fun c => c.state == .waiting || c.state == .withdrawing).map
        (fun c => c.record { result := .abandoned, tooLate := false, generation := 0#16, sequence := 0#16 }) ∧
      t.req.contexts = s.req.contexts.map fun c => if c.state = .waiting ∨ c.state = .withdrawing then c.done else c) ∧
    (src = .syncReq → t.cont.syncReqPending = false ∧ t.sync.retry = .running (s.leaseUs / 2)) ∧
    (src = .train → s.sync.phase = .head → t.cont.trainIntent = false ∧ t.sync.phase = .none ∧ t.cont.hold = s.cont.hold) ∧
    (src = .train → s.sync.phase = .entries ∨ s.sync.phase = .tail → ∀ h : Station, s.cont.hold = some h →
      t.cont.silent = true ∧ t.cont.hold = s.cont.hold ∧ t.sync.phase ≠ .entries ∧ t.sync.phase ≠ .tail))

/-- ROUND_END clears turn-used. HOLD_TIMEOUT ends a hold: NONE, silent clear; an OPEN shadow of the holder is discarded with TRAIN_LOST and
SYNC_REQ pending; a train being served ends; the replica, the leases and the requests stay. And a frame of any kind, heard or the station's
own, that completes with REJECT recessive: its CONT = 1 starts or keeps the hold of its sender, a CONT = 0 of the holder releases it, and a
frame of a station other than the holder ends it as abandoned, before its own CONT = 1 starts another. That the commands raise the idle count to 12
and 40, a held frame having been delivered on the way, is DEDUCED (log entries 18 and 16); that HOLD_TIMEOUT without a hold changes nothing
is a DESIGN CHOICE (log entry 3). In a frame, and while a fault holds the line dominant (its length: log entry 24), no round ends and no hold
times out. -/
def Obligations.RoundsEndAndHoldsStartAndEnd : Prop :=
  (∀ s : State, s.ctl.state ≠ .offline → s.frameInProgress = false → s.line.dominantLeft = 0 →
    exec .roundEnd s = .next { s with line := { s.line with idleCount := max s.line.idleCount 12, rx := .empty }, cont := { s.cont with turnUsed := false } }) ∧
  (∀ (s : State) (h : Station), s.ctl.state ≠ .offline → s.frameInProgress = false → s.line.dominantLeft = 0 → s.cont.hold = some h →
    ∃ t, exec .holdTimeout s = .next t ∧ t.cont.hold = none ∧ t.cont.silent = false ∧ 40 ≤ t.line.idleCount ∧ t.line.rx = .empty ∧
      t.replica = s.replica ∧ t.lease = s.lease ∧ t.req = s.req ∧ t.ctl = s.ctl ∧ t.cont.sendList = s.cont.sendList ∧
      t.sync.phase ≠ .entries ∧ t.sync.phase ≠ .tail ∧
      (∀ sh : Shadow, s.sync.shadow = some sh → sh.source = h →
        t.sync.shadow = none ∧ t.port.flag .trainLost = true ∧ t.cont.syncReqPending = true) ∧
      ((∀ sh : Shadow, s.sync.shadow = some sh → sh.source ≠ h) → t.sync.shadow = s.sync.shadow ∧ t.port = s.port)) ∧
  (∀ s : State, s.cont.hold = none → exec .holdTimeout s = .next s) ∧
  (∀ s : State, s.frameInProgress = true ∨ 0 < s.line.dominantLeft → exec .roundEnd s = .next s ∧ exec .holdTimeout s = .next s) ∧
  (∀ (c : Instr) (f : HeardFrame) (s : State), Instr.heardFrame c = some f → s.canHear = true → s.wellFormedHere f = true →
    f.answers.reject = false →
    ∃ t, exec c s = .next t ∧ s.holdFollows t f.head.station f.head.cont ∧ s.intrusionEnds t f) ∧
  (∀ (c : Instr) (k : FrameKind) (a : Answers) (s : State) (src : OfferSource) (f : TxFrame),
    Instr.ownFrame c = some (k, a) → s.sendsKind k src f → a.reject = false →
    ∃ t, exec c s = .next t ∧ s.holdFollows t s.ctl.number f.cont)

/-! ### State frames: who applies what -/

/-- A well-formed state frame from another number, agreed with, with REJECT recessive, is applied by an IN_STEP or LEAVING receiver: the
replica after it is the table engine's, AGREE was driven, the reject count is 0, and the sender's lease is renewed and out of the reap
set. The hold follows CONT, and an intrusion ends it as abandoned. Without a grant that names the local number the requests and the send list
stay. A REAP of the local number and grants are other
statements'. That a REAP applied as a no-op still drops its target from the reap set is DEDUCED (log entry 10), and so is what the receive
buffer holds (log entry 16). The clean-frame count moves only while MUTED (DESIGN CHOICE,
log entry 25). -/
def Obligations.AgreedStateFrameIsAppliedByTheReceiver : Prop :=
  ∀ (c : Instr) (f : HeardFrame) (b : StateBody) (s : State), Instr.heardFrame c = some f → stateBodyOf f.kind f.bytes = some b →
    s.ctl.state.applies = true → s.canHear = true → s.wellFormedHere f = true → f.answers.reject = false → s.agreesWith f →
    f.head.station ≠ s.ctl.number → ¬ b.reaps s.ctl.number →
    ∃ t, exec c s = .next t ∧ t.replica = (s.replica.apply s.tableSize f.head.station b).replica ∧ t.line.answer = some .agree ∧
      t.line.idleCount = 0 ∧ t.line.rx = .held { fields := heardRaw f.kind f.head f.bytes, answers := f.answers, sent := false } ∧
      t.ctl = { s.ctl with rejectCount := 0 } ∧ t.lease.remaining[f.head.station] = s.leaseUs ∧
      (s.grantsHere (s.replica.apply s.tableSize f.head.station b) = [] → t.req = s.req ∧ t.cont.sendList = s.cont.sendList) ∧
      t.lease.reapSet.has f.head.station = false ∧ t.cont.turnUsed = s.cont.turnUsed ∧
      s.holdFollows t f.head.station f.head.cont ∧ s.intrusionEnds t f ∧
      (∀ y : Station, y ≠ f.head.station → t.lease.remaining[y] = s.lease.remaining[y]) ∧ t.lease.heartbeat = s.lease.heartbeat ∧
      t.cont.leavePending = s.cont.leavePending ∧ t.cont.heartbeatDue = s.cont.heartbeatDue ∧ t.cont.trainIntent = s.cont.trainIntent ∧
      (s.noIntrusionBy f.head.station → t.sync = s.sync ∧ t.cont.syncReqPending = s.cont.syncReqPending) ∧
      (f.kind = .join → t.port.flag .peerJoined = true) ∧
      (∀ x : Station, b = .reap (BitVec.ofNat 8 x.val) → t.lease.reapSet.has x = false ∧
        (s.replica.present f.head.station = true → s.replica.present x = true → t.port.flag .peerLapsed = true)) ∧
      (f.kind ≠ .join → f.kind ≠ .reap → s.noIntrusionBy f.head.station → t.port = s.port)

/-- A well-formed state frame from another number, not agreed with, with REJECT recessive: with AGREE dominant the receiver loses step,
keeping the contents of its replica; with AGREE recessive it disregards the frame, which it has heard all the same. It drove DISAGREE, no context completes, and the hold follows
CONT, an intrusion ending it as abandoned. The clean-frame count moves only while MUTED (DESIGN CHOICE,
log entry 25). -/
def Obligations.DisagreeingReceiverLosesStepOrDisregards : Prop :=
  ∀ (c : Instr) (f : HeardFrame) (b : StateBody) (s : State), Instr.heardFrame c = some f → stateBodyOf f.kind f.bytes = some b →
    s.ctl.state.applies = true → s.canHear = true → s.wellFormedHere f = true → f.answers.reject = false → ¬ s.agreesWith f →
    f.head.station ≠ s.ctl.number →
    ∃ t, exec c s = .next t ∧ t.line.answer = some .disagree ∧ t.req = s.req ∧ t.cont.sendList = s.cont.sendList ∧
      s.holdFollows t f.head.station f.head.cont ∧ s.intrusionEnds t f ∧
      (f.answers.agree = true → t.ctl.state = .outOfStep ∧ t.replica = { s.replica with valid := false } ∧ t.port.flag .lostStep = true ∧
        t.cont.syncReqPending = true ∧ t.cont.leavePending = false ∧ t.cont.heartbeatDue = false ∧ t.cont.trainIntent = false ∧
        (∀ x : Station, t.lease.remaining[x] = 0) ∧ t.lease.reapSet = 0#16 ∧ t.lease.heartbeat = .stopped) ∧
      (f.answers.agree = false → t.ctl = { s.ctl with rejectCount := 0 } ∧ t.replica = s.replica ∧ s.heardCleanly t f.head.station ∧
        (s.noIntrusionBy f.head.station → t.port = s.port))

/-- A state frame completed with REJECT recessive at a station that is not IN_STEP or LEAVING is not applied and not answered, but
heard; a LISTENING or JOINING station notes that it heard one. The clean-frame count moves only while MUTED (DESIGN CHOICE,
log entry 25). -/
def Obligations.StationOutOfStepAppliesNoStateFrame : Prop :=
  ∀ (c : Instr) (f : HeardFrame) (b : StateBody) (s : State), Instr.heardFrame c = some f → stateBodyOf f.kind f.bytes = some b →
    s.ctl.state.applies = false → s.canHear = true → s.wellFormedHere f = true → f.answers.reject = false →
    (f.head.station = s.ctl.number → s.ctl.state.ownNumberRule = false) →
    ∃ t, exec c s = .next t ∧ t.replica = s.replica ∧ t.ctl.state = s.ctl.state ∧ t.line.answer = none ∧ t.req = s.req ∧
      s.heardCleanly t f.head.station ∧
      (s.ctl.state = .listening ∨ s.ctl.state = .joining → t.ctl.heardState = true) ∧
      (s.ctl.state ≠ .listening → s.ctl.state ≠ .joining → t.ctl.heardState = s.ctl.heardState)

/-- A well-formed frame of any kind with REJECT dominant is heard and counts as received cleanly; an answer that the station's state gives
has been driven, and an offer in its arbitration field has lost. Nothing else changes: no replica, station state, hold, shadow, request,
flag, timer or list, and no attempt count but a REAP's whose target has left the reap set (DEDUCED, log entry 12). The reject count of a
MUTED station (DEDUCED, log entry 9) and what the receive buffer holds (DEDUCED, log entry 16) are readings, and that the clean-frame count
moves only while MUTED and how long a fault holds the line are DESIGN CHOICES (log entries 25 and 24). -/
def Obligations.RejectedFrameIsHeardAndChangesNothingElse : Prop :=
  ∀ (c : Instr) (f : HeardFrame) (s : State), Instr.heardFrame c = some f → s.canHear = true → s.wellFormedHere f = true →
    f.answers.reject = true →
    ∃ t, exec c s = .next t ∧ s.heardCleanly t f.head.station ∧ (s.ctl.state = .muted → t.ctl.rejectCount = s.ctl.rejectCount) ∧
      t.line.idleCount = 0 ∧ t.line.rx = .held { fields := heardRaw f.kind f.head f.bytes, answers := f.answers, sent := false } ∧
      t.line.checkAcc = frameCheck (heardRaw f.kind f.head f.bytes) ∧ t.line.overrun = false ∧
      t.line.dominantLeft = (if s.line.rx.isFilling then s.line.dominantLeft else 0) ∧
      (f.kind.isState = true → s.ctl.state.applies = true → s.agreesWith f → t.line.answer = some .agree) ∧
      (f.kind.isState = true → s.ctl.state.applies = true → ¬ s.agreesWith f → t.line.answer = some .disagree) ∧
      (f.kind.isState = false ∨ s.ctl.state.applies = false → t.line.answer = none) ∧
      t.cont.attempts = (if s.cont.attempts.reapTarget = some f.head.station then { s.cont.attempts with reap := 0, reapTarget := none }
        else s.cont.attempts) ∧
      t = { s with line := t.line, lease := { s.lease with remaining := t.lease.remaining, reapSet := t.lease.reapSet },
                   ctl := { s.ctl with rejectCount := t.ctl.rejectCount, cleanCount := t.ctl.cleanCount },
                   cont := { s.cont with offer := none, attempts := t.cont.attempts } }

/-- The own-number rule: a frame of any kind completed with REJECT recessive, from another transmitter under the local number, makes a
SYNCING, OUT_OF_STEP, MUTED, IN_STEP or LEAVING station REFUSED with CLASH: replica empty, send list empty, no context open. -/
def Obligations.OwnNumberFrameRefusesTheStation : Prop :=
  ∀ (c : Instr) (f : HeardFrame) (s : State), Instr.heardFrame c = some f → s.ctl.state.ownNumberRule = true → s.canHear = true →
    s.wellFormedHere f = true → f.answers.reject = false → f.head.station = s.ctl.number →
    ∃ t, exec c s = .next t ∧ t.ctl.state = .refused ∧ t.ctl.number = s.ctl.number ∧ t.port.flag .clash = true ∧
      t.replica.isEmptyForm ∧ t.cont.sendList = [] ∧ (∀ x ∈ t.req.contexts, x.state = .done) ∧
      t.lease.reapSet = 0#16 ∧ t.sync.shadow = none

/-- The station's own state frame, other than JOIN and LEAVE, with REJECT recessive and AGREE dominant or no answer, is applied by its
sender: the offer is over, turn-used follows the class, and in IN_STEP the heartbeat timer restarts with heartbeat due cleared.
That a REAP applied as a no-op still drops its target from the reap set is DEDUCED (log entry 10), and so is what the receive buffer holds
(log entry 16). -/
def Obligations.AgreedOwnStateFrameIsAppliedByTheSender : Prop :=
  ∀ (c : Instr) (k : FrameKind) (a : Answers) (s : State) (src : OfferSource) (f : TxFrame) (b : StateBody),
    Instr.ownFrame c = some (k, a) → s.sendsKind k src f → stateBodyOf k f.body = some b → k ≠ .join → k ≠ .leave →
    s.ctl.state.applies = true → a.reject = false → (a.agree = true ∨ a.disagree = false) → ¬ b.reaps s.ctl.number →
    ∃ t, exec c s = .next t ∧ t.replica = (s.replica.apply s.tableSize s.ctl.number b).replica ∧ t.cont.offer = none ∧
      t.cont.turnUsed = (s.cont.turnUsed || decide (2 ≤ k.cls.toNat)) ∧ t.ctl = s.ctl ∧ t.line.answer = none ∧
      t.line.rx = .held { fields := f.raw s.ctl.number, answers := a, sent := true } ∧ t.lease.remaining = s.lease.remaining ∧
      (s.noIntrusionBy s.ctl.number → t.sync = s.sync ∧ (k ≠ .reap → t.port = s.port ∧ t.lease.reapSet = s.lease.reapSet)) ∧
      (s.ctl.state = .inStep → t.lease.heartbeat = .running (s.leaseUs / 4) ∧ t.cont.heartbeatDue = false) ∧
      (∀ x : Station, b = .reap (BitVec.ofNat 8 x.val) → t.lease.reapSet.has x = false)

/-- The outcome of the station's own applied table frame decides its context: a final result completes it with that result, TOO_LATE when
it is marked, and the GENERATION and sequence after the apply; QUEUED makes it WAITING, or WITHDRAWING with a WITHDRAW at the tail when
it is marked; the outcome of a WITHDRAW completes its context with the recorded cause. Its entry has left the send list. -/
def Obligations.OutcomeOfTheOwnFrameDecidesItsContext : Prop :=
  ∀ (c : Instr) (k : FrameKind) (a : Answers) (s : State) (tag : Byte) (f : TxFrame) (b : StateBody) (x : Context) (code : OutcomeCode) (gen : Word),
    Instr.ownFrame c = some (k, a) → s.sendsKind k (.entry tag) f → stateBodyOf k f.body = some b → k ≠ .leave → k ≠ .join →
    s.ctl.state.applies = true → a.reject = false → (a.agree = true ∨ a.disagree = false) →
    s.requestLaw → x ∈ s.req.contexts → x.tag = tag →
    (s.replica.apply s.tableSize s.ctl.number b).outcome = some (code, gen) →
    (∀ g ∈ (s.replica.apply s.tableSize s.ctl.number b).grants, g.grant.waiter.station ≠ s.ctl.number) →
    ∃ t, exec c s = .next t ∧
      (x.state = .transmitting → ∀ res : Result, code.result = some res →
        t.req.queue = s.req.queue ++ [x.record { result := res, tooLate := x.marked, generation := gen, sequence := s.replica.sequence + 1#16 }] ∧
        t.cont.sendList = s.cont.sendList.filter fun e => e.tag != tag) ∧
      (x.state = .transmitting → code = .queued → x.cause = .none →
        t.req.find tag = some { x with state := .waiting } ∧ t.req.queue = s.req.queue ∧
        t.cont.sendList = s.cont.sendList.filter fun e => e.tag != tag) ∧
      (x.state = .transmitting → code = .queued → x.cause ≠ .none →
        t.req.find tag = some { x with state := .withdrawing, withdrawPhase := .queued } ∧ t.req.queue = s.req.queue ∧
        t.cont.sendList = (s.cont.sendList.filter fun e => e.tag != tag) ++
          [{ kind := .withdraw, tag := tag, resource := x.resource, mode := .excl, mayWait := false, attempts := 0, carried := false }]) ∧
      (x.state = .withdrawing → ∀ res : Result, x.cause.result = some res →
        t.req.queue = s.req.queue ++ [x.record { result := res, tooLate := false, generation := gen, sequence := s.replica.sequence + 1#16 }] ∧
        t.cont.sendList = s.cont.sendList.filter fun e => e.tag != tag)

/-- A REAP of the local number from a member, agreed with, evicts the station: EVICTED with its flag and an empty replica, and every open
context completes EVICTED with the sequence after the apply, in acceptance order, behind the records already waiting. The station's own
LEAVE applied: DEPARTED without a flag, replica and send list empty, and the WAITING and WITHDRAWING contexts completed ABANDONED with
the sequence after the LEAVE. -/
def Obligations.AppliedReapEvictsAndLeaveDeparts : Prop :=
  (∀ (h : Head) (a : Answers) (s : State), s.ctl.state.applies = true → s.canHear = true → a.reject = false →
    h.seq = s.replica.sequence → h.station ≠ s.ctl.number → s.replica.present h.station = true → s.replica.present s.ctl.number = true →
    ∃ t, exec (.reap (.heard h (BitVec.ofNat 8 s.ctl.number.val)) a) s = .next t ∧ t.ctl.state = .evicted ∧ t.port.flag .evicted = true ∧
      t.replica.isEmptyForm ∧ t.cont.sendList = [] ∧ (∀ x ∈ t.req.contexts, x.state = .done) ∧
      t.req.queue = s.req.queue ++ (s.req.contexts.filter fun c => c.state != .done).map
        (fun c => c.record { result := .evicted, tooLate := false, generation := 0#16, sequence := s.replica.sequence + 1#16 })) ∧
  (∀ (a : Answers) (s : State) (f : TxFrame), s.sendsKind .leave .leave f → s.ctl.state = .leaving → a.reject = false →
    (a.agree = true ∨ a.disagree = false) → s.replica.present s.ctl.number = true → s.noIntrusionBy s.ctl.number →
    ∃ t, exec (.leave .own a) s = .next t ∧ t.ctl.state = .departed ∧ t.port.flags = s.port.flags ∧ t.replica.isEmptyForm ∧
      t.cont.sendList = [] ∧ t.cont.leavePending = false ∧
      t.req.queue = s.req.queue ++ (s.req.contexts.filter fun c => c.state == .waiting || c.state == .withdrawing).map
        (fun c => c.record { result := .abandoned, tooLate := false, generation := 0#16, sequence := s.replica.sequence + 1#16 }))

/-- A stale sender, met by DISAGREE and no AGREE, applies nothing and goes OUT_OF_STEP with LOST_STEP and SYNC_REQ pending; the context
of its context frame returns to QUEUED_LOCAL, or stays WITHDRAWING with its WITHDRAW queued, with its entry in place at count 0; a marked
one completes with its cause. -/
def Obligations.StaleSenderLosesStep : Prop :=
  ∀ (c : Instr) (k : FrameKind) (a : Answers) (s : State) (src : OfferSource) (f : TxFrame),
    Instr.ownFrame c = some (k, a) → s.sendsKind k src f → k.isState = true → k ≠ .join → s.ctl.state.applies = true →
    a.reject = false → a.agree = false → a.disagree = true →
    ∃ t, exec c s = .next t ∧ t.ctl.state = .outOfStep ∧ t.replica = { s.replica with valid := false } ∧ t.port.flag .lostStep = true ∧
      t.cont.syncReqPending = true ∧ t.cont.offer = none ∧ t.lease.reapSet = 0#16 ∧ t.lease.heartbeat = .stopped ∧
      t.cont.leavePending = false ∧ t.cont.turnUsed = (s.cont.turnUsed || decide (2 ≤ k.cls.toNat)) ∧
      (∀ (tag : Byte) (x : Context), src = .entry tag → s.requestLaw → x ∈ s.req.contexts → x.tag = tag →
        (x.state = .transmitting → x.cause = .none →
          t.req.find tag = some { x with state := .queuedLocal } ∧ t.req.queue = s.req.queue ∧
          t.cont.sendList = s.cont.sendList.map fun e => if e.tag == tag then { e with attempts := 0 } else e) ∧
        (x.state = .withdrawing →
          t.req.find tag = some { x with withdrawPhase := .queued } ∧ t.req.queue = s.req.queue ∧
          t.cont.sendList = s.cont.sendList.map fun e => if e.tag == tag then { e with attempts := 0 } else e) ∧
        (x.state = .transmitting → ∀ res : Result, x.cause.result = some res →
          t.req.queue = s.req.queue ++ [x.record { result := res, tooLate := false, generation := 0#16, sequence := 0#16 }] ∧
          t.cont.sendList = s.cont.sendList.filter fun e => e.tag != tag))

/-- The joiner's reading of its JOIN (Table 5-3): refused on DISAGREE; admitted on AGREE alone; with no answer it listens again when a state
frame was heard, and else founds: sequence 1, itself PRESENT and all others ABSENT, every entry FREE with the block's attributes. -/
def Obligations.JoinerReadsItsJoin : Prop :=
  ∀ (a : Answers) (s : State) (f : TxFrame), s.sendsKind .join .join f → s.ctl.state = .joining → a.reject = false →
    ∃ t, exec (.join .own a) s = .next t ∧ t.cont.joinPending = false ∧ t.cont.offer = none ∧
      (a.disagree = true → t.ctl.state = .refused ∧ t.port.flag .refused = true ∧ t.replica.isEmptyForm) ∧
      (a.disagree = false → a.agree = true → t.ctl.state = .syncing ∧ t.cont.syncReqPending = true ∧ t.replica = s.replica) ∧
      (a.disagree = false → a.agree = false → s.ctl.heardState = true →
        t.ctl.state = .listening ∧ t.ctl.heardState = false ∧ t.ctl.joinWait = .running (s.leaseUs / 2) ∧ t.replica = s.replica) ∧
      (a.disagree = false → a.agree = false → s.ctl.heardState = false →
        t.ctl.state = .inStep ∧ t.port.flag .founded = true ∧ t.lease.heartbeat = .running (s.leaseUs / 4) ∧
        t.replica.valid = true ∧ t.replica.sequence = 1#16 ∧ t.replica.poolInUse = 0 ∧
        (∀ x : Station, t.replica.membership x = if x = s.ctl.number then .present else .absent) ∧
        (∀ i : Nat, i < s.tableSize → i < 64 → t.replica.entry i =
          { permit := s.port.permit i, sharedOk := s.port.sharedOk i, state := .free, holders := 0#16, waiters := [], generation := 0#16 }))

/-! ### The table engine -/

/-- CLAIM from a PRESENT sender: the two refusal checks in order, the grant at once of Table 1-4, then BUSY, POOL_FULL or QUEUED. Only
GRANTED and QUEUED change the entry, only QUEUED the pool, no promotion follows, and no other entry changes. -/
def Obligations.ClaimIsRefusedGrantedOrQueued : Prop :=
  ∀ (r : Replica) (ts : Nat) (x : Station) (res : Byte) (m : Mode) (w : Bool) (tag : Byte), r.present x = true → res.toNat < 64 →
    let e := r.entry res.toNat
    let a := r.apply ts x (.claim res m w tag)
    let refused := e.permit.has x = false ∨ (m = .shared ∧ e.sharedOk = false)
    let named := e.holders.has x = true ∨ e.waits x = true
    let grantable := e.waiters = [] ∧ (e.state = .free ∨ (e.state = .shared ∧ m = .shared))
    let unchanged := fun code : OutcomeCode =>
      a.outcome = some (code, e.generation) ∧ a.replica = { r with sequence := r.sequence + 1#16 }
    a.grants = [] ∧ a.replica.sequence = r.sequence + 1#16 ∧ a.replica.roster = r.roster ∧
    (∀ j : Nat, j ≠ res.toNat → a.replica.entry j = r.entry j) ∧
    (refused → unchanged .notPermitted) ∧
    (¬ refused → named → unchanged .already) ∧
    (¬ refused → ¬ named → grantable →
      a.outcome = some (.granted, e.generation + 1#16) ∧ a.replica.poolInUse = r.poolInUse ∧
      a.replica.entry res.toNat =
        { e with holders := e.holders.addStation x, state := (if m = .excl then .exclusive else .shared), generation := e.generation + 1#16 }) ∧
    (¬ refused → ¬ named → ¬ grantable → w = false → unchanged .busy) ∧
    (¬ refused → ¬ named → ¬ grantable → w = true → 48 ≤ r.poolInUse → unchanged .poolFull) ∧
    (¬ refused → ¬ named → ¬ grantable → w = true → r.poolInUse < 48 →
      a.outcome = some (.queued, e.generation) ∧ a.replica.poolInUse = r.poolInUse + 1 ∧
      a.replica.entry res.toNat = { e with waiters := e.waiters ++ [{ station := x, mode := m, tag := tag }] })

/-- R20. Promotion, step by step; where it runs and where not; and what it never does: it grants in list order, at most one EXCL waiter,
and stops only at a head that is not grantable. -/
def Obligations.PromotionGrantsFromTheHead : Prop :=
  (∀ e : Entry, e.waiters = [] → e.promote = (e, [])) ∧
  (∀ (e : Entry) (w : Waiter) (ws : List Waiter), e.waiters = w :: ws →
    (w.mode = .excl → e.holders = 0#16 →
      e.promote = ({ e.grant w.station .excl with waiters := ws }, [{ waiter := w, generation := e.generation + 1#16 }])) ∧
    (w.mode = .shared → e.state ≠ .exclusive →
      e.promote = (({ e.grant w.station .shared with waiters := ws } : Entry).promote.1,
        { waiter := w, generation := e.generation + 1#16 } :: ({ e.grant w.station .shared with waiters := ws } : Entry).promote.2)) ∧
    (¬ (w.mode = .excl ∧ e.holders = 0#16) → ¬ (w.mode = .shared ∧ e.state ≠ .exclusive) → e.promote = (e, []))) ∧
  (∀ e : Entry, e.promote.2.map Grant.waiter ++ e.promote.1.waiters = e.waiters ∧
    (e.promote.2.filter fun g => g.waiter.mode == .excl).length ≤ 1 ∧
    (∀ w : Waiter, e.promote.1.waiters.head? = some w →
      (w.mode = .excl → e.promote.1.holders ≠ 0#16) ∧ (w.mode = .shared → e.promote.1.state = .exclusive))) ∧
  (∀ (e : Entry) (x : Station), e.holders.has x = true →
    (e.applyRelease x).entry = (e.dropHolder x).promote.1 ∧ (e.applyRelease x).grants = (e.dropHolder x).promote.2) ∧
  (∀ (e : Entry) (x : Station), e.waits x = true →
    (e.applyWithdraw x).entry = (e.dropWaiter x).promote.1 ∧ (e.applyWithdraw x).grants = (e.dropWaiter x).promote.2) ∧
  (∀ (e : Entry) (x : Station), e.state = .exclusive → e.holders.has x = true → e.sharedOk = true →
    (e.applyDowngrade x).entry = ({ e with state := .shared } : Entry).promote.1 ∧
    (e.applyDowngrade x).grants = ({ e with state := .shared } : Entry).promote.2) ∧
  (∀ (e : Entry) (x : Station), e.remove x = ((e.dropHolder x).dropWaiter x).promote) ∧
  (∀ (r : Replica) (ts : Nat) (x : Station) (i : Nat), i < ts → (r.removeStation ts x).replica.entry i = ((r.entry i).remove x).1) ∧
  (∀ (e : Entry) (p : Nat) (x : Station) (m : Mode) (w : Bool) (tag : Byte), (e.applyClaim p x m w tag).grants = []) ∧
  (∀ (e : Entry) (x : Station), (e.holders.has x = false → e.applyRelease x = { entry := e, code := .notHeld, grants := [] }) ∧
    (e.waits x = false → e.applyWithdraw x = { entry := e, code := .none, grants := [] }) ∧
    (e.state ≠ .exclusive ∨ e.holders.has x = false → e.applyDowngrade x = { entry := e, code := .notHeld, grants := [] }) ∧
    (e.state = .exclusive → e.holders.has x = true → e.sharedOk = false →
      e.applyDowngrade x = { entry := e, code := .notPermitted, grants := [] }))

/-- RELEASE, WITHDRAW and DOWNGRADE that find nothing to act on change nothing but the sequence; those that do take the sender's hold or
record out, or turn its hold SHARED, with the outcome of Table 1-3, and no other entry changes. GENERATION moves by the number of grants
that promotion made, and the GENERATION handed with the outcome is the entry's after the apply. -/
def Obligations.ReleaseWithdrawAndDowngradeOutcomes : Prop :=
  ∀ (r : Replica) (ts : Nat) (x : Station) (res : Byte), r.present x = true → res.toNat < 64 →
    let e := r.entry res.toNat
    let same := { r with sequence := r.sequence + 1#16 }
    (∀ b : StateBody, b = .release res ∨ b = .withdraw res ∨ b = .downgrade res →
      (r.apply ts x b).replica.sequence = r.sequence + 1#16 ∧ (r.apply ts x b).replica.roster = r.roster ∧
      (∀ j : Nat, j ≠ res.toNat → (r.apply ts x b).replica.entry j = r.entry j) ∧
      ((r.apply ts x b).replica.entry res.toNat).generation = e.generation + BitVec.ofNat 16 (r.apply ts x b).grants.length) ∧
    (e.holders.has x = false → (r.apply ts x (.release res)).outcome = some (.notHeld, e.generation) ∧ (r.apply ts x (.release res)).replica = same) ∧
    (e.holders.has x = true → (r.apply ts x (.release res)).outcome = some (.released, ((r.apply ts x (.release res)).replica.entry res.toNat).generation) ∧
      (r.apply ts x (.release res)).replica.entry res.toNat =
        ({ e with holders := e.holders.dropStation x, state := if e.holders.dropStation x = 0#16 then .free else e.state } : Entry).promote.1) ∧
    (e.waits x = false → (r.apply ts x (.withdraw res)).outcome = some (.none, e.generation) ∧ (r.apply ts x (.withdraw res)).replica = same) ∧
    (e.waits x = true → (r.apply ts x (.withdraw res)).outcome = some (.withdrawn, ((r.apply ts x (.withdraw res)).replica.entry res.toNat).generation) ∧
      (r.apply ts x (.withdraw res)).replica.entry res.toNat =
        ({ e with waiters := e.waiters.filter fun w => w.station != x } : Entry).promote.1) ∧
    (e.state ≠ .exclusive ∨ e.holders.has x = false →
      (r.apply ts x (.downgrade res)).outcome = some (.notHeld, e.generation) ∧ (r.apply ts x (.downgrade res)).replica = same) ∧
    (e.state = .exclusive → e.holders.has x = true → e.sharedOk = false →
      (r.apply ts x (.downgrade res)).outcome = some (.notPermitted, e.generation) ∧ (r.apply ts x (.downgrade res)).replica = same) ∧
    (e.state = .exclusive → e.holders.has x = true → e.sharedOk = true →
      (r.apply ts x (.downgrade res)).outcome = some (.downgraded, ((r.apply ts x (.downgrade res)).replica.entry res.toNat).generation) ∧
      (r.apply ts x (.downgrade res)).replica.entry res.toNat = ({ e with state := .shared } : Entry).promote.1)

/-- The roster after each roster frame (Table 2-2), the no-op of a sender that is not PRESENT, one advance of the table sequence by every
frame, and removal: at each entry below TABLE_SIZE the station's hold and record go and promotion runs, which leaves it named in none; its
grants stand in ascending order of resource, and the pool takes back every record that left a list. A frame without removal changes no entry
and not the pool. -/
def Obligations.RosterFramesFollowTheRosterTable : Prop :=
  (∀ (r : Replica) (ts : Nat) (x : Station) (b : StateBody), b ≠ .join → r.present x = false →
    r.apply ts x b = { replica := { r with sequence := r.sequence + 1#16 }, outcome := none, grants := [] }) ∧
  (∀ (r : Replica) (ts : Nat) (x y : Station), (r.apply ts x .join).replica.membership y = if y = x then .present else r.membership y) ∧
  (∀ (r : Replica) (ts : Nat) (x : Station) (b : StateBody),
    (r.apply ts x b).replica.sequence = r.sequence + 1#16 ∧ (r.apply ts x b).replica.valid = r.valid) ∧
  (∀ (r : Replica) (ts : Nat) (x : Station), r.present x = false →
    (∀ i : Nat, (r.apply ts x .join).replica.entry i = r.entry i) ∧ (r.apply ts x .join).replica.poolInUse = r.poolInUse ∧
    (r.apply ts x .join).grants = []) ∧
  (∀ (r : Replica) (ts : Nat) (x t : Station), r.present x = true → r.present t = false →
    r.apply ts x (.reap (BitVec.ofNat 8 t.val)) = { replica := { r with sequence := r.sequence + 1#16 }, outcome := none, grants := [] }) ∧
  (∀ (r : Replica) (ts : Nat) (x y : Station), r.present x = true →
    (r.apply ts x .leave).replica.membership y = (if y = x then .absent else r.membership y) ∧
    r.apply ts x .heartbeat = { replica := { r with sequence := r.sequence + 1#16 }, outcome := none, grants := [] } ∧
    (∀ t : Station, (r.apply ts x (.reap (BitVec.ofNat 8 t.val))).replica.membership y =
      if y = t ∧ r.membership t = .present then .lapsed else r.membership y) ∧
    (∀ target : Byte, 16 ≤ target.toNat →
      r.apply ts x (.reap target) = { replica := { r with sequence := r.sequence + 1#16 }, outcome := none, grants := [] })) ∧
  (∀ (r : Replica) (ts : Nat) (x t : Station) (b : StateBody), r.present x = true →
    ((b = .join ∧ t = x) ∨ (b = .leave ∧ t = x) ∨ (b = .reap (BitVec.ofNat 8 t.val) ∧ r.present t = true)) →
    (∀ i : Nat, i < ts → ((r.apply ts x b).replica.entry i).holders.has t = false ∧ ((r.apply ts x b).replica.entry i).waits t = false) ∧
    (∀ i : Nat, ts ≤ i → (r.apply ts x b).replica.entry i = r.entry i) ∧
    (∀ without : Entry → Entry, without = (fun e => { e with
        holders := e.holders.dropStation t, waiters := e.waiters.filter fun w => w.station != t,
        state := if e.holders.has t = true ∧ e.holders.dropStation t = 0#16 then .free else e.state }) →
      (∀ i : Nat, i < ts → (r.apply ts x b).replica.entry i = (without (r.entry i)).promote.1) ∧
      (r.apply ts x b).grants = (List.range ts).flatMap fun i => (without (r.entry i)).promote.2.map fun g => { resource := i, grant := g }) ∧
    (r.apply ts x b).outcome = none ∧
    (r.apply ts x b).replica.poolInUse = r.poolInUse -
      ((List.range ts).map fun i => (r.entry i).waiters.length - ((r.apply ts x b).replica.entry i).waiters.length).sum ∧
    ((r.apply ts x b).grants.map TableGrant.resource).Pairwise (· ≤ ·))

/-- Whichever state frame another station's apply is, and the station's own REAP, every grant it makes to the local station completes the
WAITING context it names GRANTED with the GENERATION and sequence of the grant, and a WITHDRAWING one GRANTED with TOO_LATE and its WITHDRAW
removed, several grants in their order; a grant that names no context is dropped. The last clause says it for a RELEASE by the sole EXCLUSIVE
holder before an EXCL head waiter, with the entry after it. -/
def Obligations.GrantToTheLocalStationCompletesItsClaim : Prop :=
  (∀ (c : Instr) (f : HeardFrame) (b : StateBody) (s : State), Instr.heardFrame c = some f → stateBodyOf f.kind f.bytes = some b →
    s.ctl.state.applies = true → s.canHear = true → s.wellFormedHere f = true → f.answers.reject = false → s.agreesWith f →
    f.head.station ≠ s.ctl.number → ¬ b.reaps s.ctl.number → s.requestLaw → s.replica.lawful s.tableSize →
    let a := s.replica.apply s.tableSize f.head.station b
    ∃ t, exec c s = .next t ∧ s.settlesGrants t (s.grantsHere a) (s.replica.sequence + 1#16)) ∧
  (∀ (an : Answers) (x : Station) (s : State) (f : TxFrame), s.sendsKind .reap (.reap x) f → f.body = [BitVec.ofNat 8 x.val] →
    s.ctl.state.applies = true → an.reject = false → (an.agree = true ∨ an.disagree = false) → x ≠ s.ctl.number →
    s.requestLaw → s.replica.lawful s.tableSize →
    let a := s.replica.apply s.tableSize s.ctl.number (.reap (BitVec.ofNat 8 x.val))
    ∃ t, exec (.reap .own an) s = .next t ∧ s.settlesGrants t (s.grantsHere a) (s.replica.sequence + 1#16)) ∧
  (∀ (h : Head) (res : Byte) (a : Answers) (s : State) (w : Waiter) (ws : List Waiter),
      s.ctl.state.applies = true → s.canHear = true → a.reject = false → h.seq = s.replica.sequence → h.station ≠ s.ctl.number →
      res.toNat < s.tableSize → s.replica.present h.station = true → s.requestLaw → s.sendListLaw →
      (s.replica.entry res.toNat).state = .exclusive → (s.replica.entry res.toNat).holders = StationSet.addStation 0#16 h.station →
      (s.replica.entry res.toNat).waiters = w :: ws → w.station = s.ctl.number → w.mode = .excl →
      ∃ t, exec (.release (.heard h res) a) s = .next t ∧ (t.replica.entry res.toNat).holders = StationSet.addStation 0#16 s.ctl.number ∧
        (∀ c ∈ s.req.contexts, c.tag = w.tag → c.resource = res → c.state = .waiting →
          t.req.queue = s.req.queue ++ [c.record { result := .granted, tooLate := false, generation := (s.replica.entry res.toNat).generation + 1#16,
                                                    sequence := s.replica.sequence + 1#16 }] ∧
          (t.req.find w.tag).map Context.state = some .done ∧ t.cont.sendList = s.cont.sendList) ∧
        (∀ c ∈ s.req.contexts, c.tag = w.tag → c.resource = res → c.state = .withdrawing →
          t.req.queue = s.req.queue ++ [c.record { result := .granted, tooLate := true, generation := (s.replica.entry res.toNat).generation + 1#16,
                                                    sequence := s.replica.sequence + 1#16 }] ∧
          (t.req.find w.tag).map Context.state = some .done ∧ t.cont.sendList = s.cont.sendList.filter fun e => e.tag != w.tag) ∧
        ((∀ c ∈ s.req.contexts, c.tag = w.tag → c.resource = res → c.state ≠ .waiting ∧ c.state ≠ .withdrawing) →
          t.req.queue = s.req.queue ∧ t.cont.sendList = s.cont.sendList))

/-! ### Service frames -/

/-- SYNC_REQ: heard with REJECT recessive it sets train intent at an IN_STEP station, whose phase NONE becomes HEAD, and at no other, and is
heard as a frame received cleanly, the clean-frame count moving only while MUTED (DESIGN CHOICE, log entry 25); sent by this station it clears SYNC_REQ pending and starts the retry timer at LEASE/2. The replica stays. -/
def Obligations.SyncReqSetsTrainIntent : Prop :=
  (∀ (h : Head) (a : Answers) (s : State), s.canHear = true → a.reject = false → h.station ≠ s.ctl.number →
    ∃ t, exec (.syncReq (.heard h ()) a) s = .next t ∧ t.replica = s.replica ∧ t.ctl.state = s.ctl.state ∧ t.req = s.req ∧
      s.heardCleanly t h.station ∧ s.holdFollows t h.station h.cont ∧
      (s.ctl.state = .inStep → t.cont.trainIntent = true ∧ (s.sync.phase = .none → t.sync.phase = .head)) ∧
      (s.ctl.state ≠ .inStep → t.cont.trainIntent = s.cont.trainIntent)) ∧
  (∀ (a : Answers) (s : State) (f : TxFrame), s.sendsKind .syncReq .syncReq f →
    s.ctl.state = .syncing ∨ s.ctl.state = .outOfStep → a.reject = false →
    ∃ t, exec (.syncReq .own a) s = .next t ∧ t.cont.syncReqPending = false ∧ t.sync.retry = .running (s.leaseUs / 2) ∧
      t.cont.offer = none ∧ t.replica = s.replica ∧ t.ctl = s.ctl ∧ t.cont.trainIntent = s.cont.trainIntent)

/-- SNAP_HEAD heard with REJECT recessive: every other server stands down and the retry timer stops. A requesting station refuses a foreign
digest, declines another TABLE_SIZE and asks again, and else opens its shadow from the head. CONT = 1 starts the sender's hold. A
station that it does not put in REFUSED has heard it as a frame received cleanly. The clean-frame count moves only while MUTED (DESIGN CHOICE,
log entry 25). -/
def Obligations.SnapHeadOpensTheShadow : Prop :=
  ∀ (h : Head) (body : List Byte) (a : Answers) (s : State) (hf : HeadFields), s.canHear = true → a.reject = false →
    h.station ≠ s.ctl.number → headOf body = some hf →
    ∃ t, exec (.snapHead (.heard h body) a) s = .next t ∧
      s.holdFollows t h.station h.cont ∧ (t.ctl.state = s.ctl.state → s.heardCleanly t h.station) ∧ t.cont.trainIntent = false ∧ t.sync.phase ≠ .head ∧ t.sync.retry = .stopped ∧
      (s.ctl.state.requesting = false → t.replica = s.replica ∧ t.ctl.state = s.ctl.state ∧ (s.sync.shadow = none → t.sync.shadow = none)) ∧
      (s.ctl.state.requesting = true → hf.digest ≠ s.port.digest →
        t.ctl.state = .refused ∧ t.port.flag .refused = true ∧ t.sync.shadow = none ∧ t.replica.isEmptyForm) ∧
      (s.ctl.state.requesting = true → hf.digest = s.port.digest → hf.tableSize ≠ s.tableSize →
        t.ctl.state = s.ctl.state ∧ t.sync.shadow = none ∧ t.cont.syncReqPending = true ∧ t.replica = s.replica) ∧
      (s.ctl.state.requesting = true → hf.digest = s.port.digest → hf.tableSize = s.tableSize →
        t.ctl.state = s.ctl.state ∧ t.cont.syncReqPending = false ∧ t.replica = s.replica ∧
        t.sync.shadow = some { source := h.station, trainSequence := hf.trainSequence, roster := hf.roster, poolInUse := hf.poolInUse,
                               headBody := body, claims := [] })

/-- SNAP_ENTRY heard from the Source of an OPEN shadow, under no other hold: records with the next indices in order are taken, else the
shadow is discarded and SYNC_REQ pending set; one for a CLOSED shadow or from another station leaves the sync unit as it is. In
either case it is heard as a frame received cleanly, and CONT = 1 of the holder keeps its hold. The clean-frame count moves only while MUTED (DESIGN CHOICE,
log entry 25). -/
def Obligations.SnapEntryFillsTheShadow : Prop :=
  (∀ (h : Head) (body : List Byte) (a : Answers) (s : State) (sh : Shadow) (rs : List EntryRecord), s.canHear = true → a.reject = false →
    h.station ≠ s.ctl.number → s.noIntrusionBy h.station → 6 ≤ body.length → body.length ≤ 40 → recordsOf body = some rs →
    (∀ r ∈ rs, r.index.toNat < s.tableSize) → s.sync.shadow = some sh → sh.source = h.station →
    ∃ t, exec (.snapEntry (.heard h body) a) s = .next t ∧ t.replica = s.replica ∧ t.ctl.state = s.ctl.state ∧ t.port = s.port ∧
      s.heardCleanly t h.station ∧ s.holdFollows t h.station h.cont ∧
      (rs.map (fun r => r.index.toNat) = List.range' sh.claims.length rs.length →
        t.sync = { s.sync with shadow := some { sh with claims := sh.claims ++ rs.map EntryRecord.claim } }) ∧
      (rs.map (fun r => r.index.toNat) ≠ List.range' sh.claims.length rs.length →
        t.sync = { s.sync with shadow := none } ∧ t.cont.syncReqPending = true)) ∧
  (∀ (h : Head) (body : List Byte) (a : Answers) (s : State), s.canHear = true → a.reject = false →
    h.station ≠ s.ctl.number → s.noIntrusionBy h.station →
    s.wellFormedHere { kind := .snapEntry, head := h, bytes := body, answers := a } = true →
    (∀ sh : Shadow, s.sync.shadow = some sh → sh.source ≠ h.station) →
    ∃ t, exec (.snapEntry (.heard h body) a) s = .next t ∧ t.replica = s.replica ∧ t.ctl.state = s.ctl.state ∧ t.port = s.port ∧ t.sync = s.sync ∧
      s.heardCleanly t h.station ∧ s.holdFollows t h.station h.cont)

/-- SNAP_TAIL heard by a requesting station from the Source of its shadow, under no other hold. A good shadow that shows the local number
PRESENT is installed, with reconciliation and then REGAINED: by Table 8-7 a WAITING or WITHDRAWING context whose resource the local station
holds completes GRANTED, TOO_LATE when it was WITHDRAWING, one whose resource it waits for stays, one of neither completes EVICTED, and a
WITHDRAWING context that completes takes its WITHDRAW from the send list. A shadow that shows the station otherwise evicts it; one that fails
a test is discarded and a snapshot asked for again. CONT = 0 of the holder releases the hold. The clean-frame count moves only while MUTED (DESIGN CHOICE,
log entry 25). -/
def Obligations.SnapTailInstallsAGoodShadow : Prop :=
  ∀ (h : Head) (check : Word) (a : Answers) (s : State) (sh : Shadow), s.ctl.state.requesting = true → s.canHear = true →
    a.reject = false → h.station ≠ s.ctl.number → s.noIntrusionBy h.station → s.sync.shadow = some sh → sh.source = h.station →
    let good := sh.claims.length = s.tableSize ∧ sh.poolInUse = (sh.claims.map fun c => c.waiters.length).sum ∧
      checkBytes 0xFFFF#16 (sh.headBody ++ sh.claims.zipIdx.flatMap fun c => c.1.recordBytes (BitVec.ofNat 8 c.2)) = check
    ∃ t, exec (.snapTail (.heard h check) a) s = .next t ∧ t.sync.shadow = none ∧ s.holdFollows t h.station h.cont ∧
      (good → sh.roster[s.ctl.number] = .present →
        t.ctl.state = .inStep ∧ t.port.flag .regained = true ∧ t.replica.valid = true ∧ t.replica.sequence = sh.trainSequence ∧
        t.replica.roster = sh.roster ∧ t.replica.poolInUse = sh.poolInUse ∧
        (∀ (i : Nat) (c : ClaimState), i < s.tableSize → i < 64 → sh.claims[i]? = some c → t.replica.entry i =
          { permit := s.port.permit i, sharedOk := s.port.sharedOk i, state := c.state, holders := c.holders, waiters := c.waiters,
            generation := c.generation }) ∧
        (∀ x : Station, t.lease.remaining[x] = if sh.roster[x] = .present ∧ x ≠ s.ctl.number then s.leaseUs else 0) ∧
        t.lease.reapSet = 0#16 ∧ t.lease.heartbeat = .running (s.leaseUs / 4) ∧ t.cont.syncReqPending = false ∧ t.sync.retry = .stopped ∧
        (∀ holds waits asks : Context → Bool, holds = (fun c => (t.replica.entry c.resource.toNat).holders.has s.ctl.number) →
          waits = (fun c => (t.replica.entry c.resource.toNat).waiters.any fun w => w.station == s.ctl.number) →
          asks = (fun c => c.state == .waiting || c.state == .withdrawing) →
          t.req.queue = s.req.queue ++ s.req.contexts.filterMap (fun c =>
            if asks c = true ∧ holds c = true then
              some (c.record { result := .granted, tooLate := c.state == .withdrawing,
                               generation := (t.replica.entry c.resource.toNat).generation, sequence := sh.trainSequence })
            else if asks c = true ∧ waits c = false then
              some (c.record { result := .evicted, tooLate := false, generation := 0#16, sequence := sh.trainSequence })
            else none) ∧
          t.req.contexts = s.req.contexts.map (fun c => if asks c && (holds c || !waits c) then c.done else c) ∧
          t.cont.sendList = s.cont.sendList.filter fun e =>
            !s.req.contexts.any fun c => c.tag == e.tag && c.state == .withdrawing && (holds c || !waits c))) ∧
      (good → sh.roster[s.ctl.number] ≠ .present →
        t.ctl.state = .evicted ∧ t.port.flag .evicted = true ∧ t.replica.isEmptyForm ∧ t.cont.sendList = [] ∧
        t.req.contexts = s.req.contexts.map (fun c => if c.state = .done then c else c.done) ∧
        t.req.queue = s.req.queue ++ (s.req.contexts.filter fun c => c.state != .done).map
          (fun c => c.record { result := .evicted, tooLate := false, generation := 0#16, sequence := 0#16 })) ∧
      (¬ good → t.ctl.state = s.ctl.state ∧ t.replica = s.replica ∧ t.cont.syncReqPending = true ∧ t.req = s.req ∧ t.port = s.port ∧
        s.heardCleanly t h.station)

/-- The server's own train frames, completed with REJECT recessive while IN_STEP: the head begins serving at cursor 0 with its body in the
send check; an entry frame moves the cursor past its records and to phase TAIL at TABLE_SIZE; the tail ends the train. Each restarts the
heartbeat timer, and the replica stays. -/
def Obligations.ServerMovesThroughItsTrain : Prop :=
  ∀ (a : Answers) (s : State) (f : TxFrame), s.ctl.state = .inStep → a.reject = false → s.noIntrusionBy s.ctl.number →
    (s.sendsKind .snapHead .train f → f.cont = true → ∃ t, exec (.snapHead .own a) s = .next t ∧ t.sync.phase = .entries ∧ t.sync.cursor = 0 ∧
      t.sync.sendCheck = checkBytes 0xFFFF#16 f.body ∧ t.cont.trainIntent = false ∧ t.cont.hold = some s.ctl.number ∧
      t.lease.heartbeat = .running (s.leaseUs / 4) ∧ t.replica = s.replica ∧ t.ctl = s.ctl ∧ t.port = s.port) ∧
    (∀ rs : List EntryRecord, s.sendsKind .snapEntry .train f → f.cont = true → s.sync.phase = .entries → recordsOf f.body = some rs →
      ∃ t, exec (.snapEntry .own a) s = .next t ∧ t.sync.cursor = s.sync.cursor + rs.length ∧
      t.sync.phase = (if s.tableSize ≤ s.sync.cursor + rs.length then .tail else .entries) ∧
      t.sync.sendCheck = checkBytes s.sync.sendCheck f.body ∧ t.cont.hold = some s.ctl.number ∧
      t.lease.heartbeat = .running (s.leaseUs / 4) ∧ t.replica = s.replica ∧ t.ctl = s.ctl ∧ t.port = s.port) ∧
    (s.sendsKind .snapTail .train f → f.cont = false → s.sync.phase = .tail → ∃ t, exec (.snapTail .own a) s = .next t ∧
      t.sync.phase = (if s.cont.trainIntent then .head else .none) ∧ t.sync.cursor = 0 ∧ t.sync.sendCheck = 0xFFFF#16 ∧ t.cont.hold = none ∧
      t.cont.silent = (s.cont.silent && s.cont.hold.isNone) ∧ t.lease.heartbeat = .running (s.leaseUs / 4) ∧ t.replica = s.replica ∧
      t.ctl = s.ctl ∧ t.port = s.port)

/-! ### Line events, timers, counters -/

/-- FORMAT_ERROR, a frame row whose body fails this station's checks (DEDUCED, log entry 15), TRUNCATION, RECEIVE_OVERRUN: nothing is
delivered, and REJECT is driven as Table 5-1 gives; the reject count rises on a
REJECT of a frame followed to the end of CHECK, never on a truncation; while MUTED the clean-frame count is 0. The check accumulator of a
truncated frame has taken the slots that came, CHECK's own left out; with the last CHECK slot come nothing is truncated, and the
command changes nothing (DESIGN CHOICE, log entry 14). A truncated overrun
frame is answered like any truncation, in OUT_OF_STEP and SYNCING too (DESIGN CHOICE, log entry 23). An edge outside a frame with the line dominant for under two slots
only restarts the idle count; from two on (the model's reading of the row's operand, log entry 22) it is a start mark, which presets the check
accumulator, and of an overrun when the buffer is HELD; within a frame and OFFLINE it is
neither. What of the dominant period is left when the frame has ended is the line's level, held by a fault (DESIGN CHOICE, log entry 24).
When the receive buffer is HELD is DEDUCED (log entry 16), and that the clean-frame count moves only while MUTED a DESIGN CHOICE (log entry
25). -/
def Obligations.FramesNotReceivedDeliverNothing : Prop :=
  (∀ (c : Instr) (s : State), s.canHear = true →
    (∃ f : RawFrame, c = .formatError f ∧ frameGood s.tableSize f = false) ∨
      (∃ f : HeardFrame, Instr.heardFrame c = some f ∧ s.wellFormedHere f = false) → ∃ t, exec c s = .next t ∧
    t.replica = s.replica ∧ t.lease = s.lease ∧ t.sync = s.sync ∧ t.req = s.req ∧ t.port = s.port ∧ t.cont.hold = s.cont.hold ∧
    t.ctl.state = s.ctl.state ∧ t.line.idleCount = 0 ∧ t.line.rx = .empty ∧
    t.line.dominantLeft = (if s.line.rx.isFilling = true ∨ s.line.overrun = true then s.line.dominantLeft else 0) ∧
    t.line.answer = (if s.ctl.state.rejects then some .reject else none) ∧
    t.ctl.rejectCount = (if s.ctl.state.rejects then min 16 (s.ctl.rejectCount + 1) else s.ctl.rejectCount) ∧
    t.ctl.cleanCount = (if s.ctl.state = .muted then 0 else s.ctl.cleanCount)) ∧
  (∀ (bits : List Bool) (s : State), s.ctl.state ≠ .offline → s.sendingOwn = false →
    bits.length < 33 ∨ bits.length < 49 + 8 * bitsToNat ((bits.drop 27).take 6) → ∃ t, exec (.truncation bits) s = .next t ∧
    t.replica = s.replica ∧ t.lease = s.lease ∧ t.sync = s.sync ∧ t.req = s.req ∧ t.port = s.port ∧ t.cont.hold = s.cont.hold ∧
    t.ctl.state = s.ctl.state ∧ t.line.idleCount = 0 ∧ t.line.rx = .empty ∧
    t.line.dominantLeft = (if s.line.rx.isFilling = true ∨ s.line.overrun = true then s.line.dominantLeft else 0) ∧
    t.line.answer = (if s.ctl.state.rejects then some .reject else none) ∧ t.ctl.rejectCount = s.ctl.rejectCount ∧
    t.ctl.cleanCount = (if s.ctl.state = .muted then 0 else s.ctl.cleanCount) ∧
    (∀ (f : RawFrame) (n : Nat), f.body.length = f.len.toNat → bits = (dataSlots f).take n →
      t.line.checkAcc = checkBits 0xFFFF#16 ((frameBits f).take n))) ∧
  (∀ (bits : List Bool) (s : State), 33 ≤ bits.length → 49 + 8 * bitsToNat ((bits.drop 27).take 6) ≤ bits.length →
    exec (.truncation bits) s = .next s) ∧
  (∀ (f : RawFrame) (s : State), s.ctl.state ≠ .offline → s.line.rx.isHeld = true → ∃ t, exec (.receiveOverrun f) s = .next t ∧
    t.replica = s.replica ∧ t.lease = s.lease ∧ t.sync = s.sync ∧ t.req = s.req ∧ t.port = s.port ∧ t.cont = s.cont ∧
    t.ctl.state = s.ctl.state ∧ t.line.idleCount = 0 ∧ t.line.rx = .empty ∧
    t.line.dominantLeft = (if s.line.rx.isFilling = true ∨ s.line.overrun = true then s.line.dominantLeft else 0) ∧
    t.line.answer = (if s.ctl.state = .inStep ∨ s.ctl.state = .leaving then some .reject else none) ∧
    t.ctl.rejectCount = (if s.ctl.state = .inStep ∨ s.ctl.state = .leaving then min 16 (s.ctl.rejectCount + 1) else s.ctl.rejectCount) ∧
    t.ctl.cleanCount = (if s.ctl.state = .muted then 0 else s.ctl.cleanCount)) ∧
  (∀ (slots : Nat) (s : State), s.ctl.state = .offline →
    exec (.glitch slots) s = .next { s with line := { s.line with dominantLeft := slots } }) ∧
  (∀ (slots : Nat) (s : State), s.ctl.state ≠ .offline → s.frameInProgress = true →
    exec (.glitch slots) s = .next { s with line := { s.line with dominantLeft := slots - 3 } }) ∧
  (∀ (slots : Nat) (s : State), s.ctl.state ≠ .offline → s.frameInProgress = false →
    (slots < 2 → exec (.glitch slots) s = .next { s with line := { s.line with idleCount := 0, dominantLeft := 0 } }) ∧
    (2 ≤ slots → s.line.rx = .empty → exec (.glitch slots) s = .next
      { s with line := { idleCount := 0, rx := .filling [], checkAcc := 0xFFFF#16, answer := none, overrun := false, dominantLeft := slots - 6 } }) ∧
    (2 ≤ slots → ∀ f : ReceivedFrame, s.line.rx = .held f → exec (.glitch slots) s = .next
      { s with line := { s.line with idleCount := 0, checkAcc := 0xFFFF#16, answer := none, overrun := true, dominantLeft := slots - 6 } }))

/-- The countdown events: an expired lease stops at zero and puts its station in the reap set; the heartbeat timer stops and sets heartbeat
due; the retry timer stops and sets SYNC_REQ pending; the join wait stops and makes a LISTENING station JOINING with JOIN pending. An
event whose timer does not run changes nothing (DESIGN CHOICE, log entry 3). -/
def Obligations.CountdownEventsSetTheirFlags : Prop :=
  (∀ (x : Station) (s : State), s.leaseRunning x = true → ∃ t, exec (.leaseExpired x) s = .next t ∧ t.lease.reapSet.has x = true ∧
    t.lease.remaining[x] = 0 ∧ t.leaseRunning x = false ∧
    (∀ y : Station, y ≠ x → t.lease.remaining[y] = s.lease.remaining[y] ∧ t.lease.reapSet.has y = s.lease.reapSet.has y) ∧
    t = { s with lease := { s.lease with remaining := t.lease.remaining, reapSet := t.lease.reapSet } }) ∧
  (∀ (x : Station) (s : State), s.leaseRunning x = false → exec (.leaseExpired x) s = .next s) ∧
  (∀ (us : Nat) (s : State), s.lease.heartbeat = .running us → ∃ t, exec .heartbeatDue s = .next t ∧ t.lease.heartbeat = .stopped ∧
    t.cont.heartbeatDue = true ∧ t.replica = s.replica ∧ t.ctl = s.ctl ∧ t.port = s.port ∧ t.cont.sendList = s.cont.sendList) ∧
  (∀ s : State, s.lease.heartbeat = .stopped → exec .heartbeatDue s = .next s) ∧
  (∀ (us : Nat) (s : State), s.sync.retry = .running us →
    exec .retryTimerExpiry s = .next { s with sync := { s.sync with retry := .stopped }, cont := { s.cont with syncReqPending := true } }) ∧
  (∀ s : State, s.sync.retry = .stopped → exec .retryTimerExpiry s = .next s) ∧
  (∀ (us : Nat) (s : State), s.ctl.joinWait = .running us → s.ctl.state = .listening → ∃ t, exec .joinWaitElapsed s = .next t ∧
    t.ctl = { s.ctl with joinWait := .stopped, state := .joining, rejectCount := 0 } ∧ t.cont.joinPending = true ∧ t.cont.attempts.join = 0 ∧
    t.replica = s.replica ∧ t.port = s.port ∧ t.req = s.req) ∧
  (∀ s : State, s.ctl.joinWait = .stopped ∨ s.ctl.state ≠ .listening → exec .joinWaitElapsed s = .next s)

/-- ENTER_MUTED at a reject count of 16: MUTED with its flag, the replica invalid with its contents kept, the member state cleared, no
context completed. RECOVERY at a clean-frame count of 64: OUT_OF_STEP, reject count 0, SYNC_REQ pending, no flag. That neither command
acts before its count is a DESIGN CHOICE (log entry 8), and so is that RECOVERY leaves the clean-frame count where it stands (log entry 25). -/
def Obligations.CountsMuteAndRecoverTheStation : Prop :=
  (∀ s : State, s.ctl.state.rejects = true → 16 ≤ s.ctl.rejectCount → ∃ t, exec .enterMuted s = .next t ∧
    t.ctl = { s.ctl with state := .muted, cleanCount := 0 } ∧ t.port.flag .muted = true ∧ t.replica = { s.replica with valid := false } ∧
    t.req = s.req ∧ t.cont.sendList = s.cont.sendList ∧ t.cont.syncReqPending = false ∧ t.sync.shadow = none ∧ t.sync.retry = .stopped ∧
    (s.ctl.state = .inStep ∨ s.ctl.state = .leaving → t.lease.reapSet = 0#16 ∧ (∀ x : Station, t.lease.remaining[x] = 0) ∧
      t.lease.heartbeat = .stopped ∧ t.cont.heartbeatDue = false ∧ t.cont.trainIntent = false ∧ t.cont.leavePending = false ∧ t.sync.phase = .none)) ∧
  (∀ s : State, s.ctl.state.rejects = false ∨ s.ctl.rejectCount < 16 → exec .enterMuted s = .next s) ∧
  (∀ s : State, s.ctl.state = .muted → 64 ≤ s.ctl.cleanCount →
    exec .recovery s = .next { s with ctl := { s.ctl with state := .outOfStep, rejectCount := 0 }, cont := { s.cont with syncReqPending := true } }) ∧
  (∀ s : State, s.ctl.state ≠ .muted ∨ s.ctl.cleanCount < 64 → exec .recovery s = .next s)

/-! ### Frames -/

/-- The events of the line and of time leave the port's configuration, lock, digest, masks, notice and SDO and the station number as they
were, and no event flag is cleared. -/
def Obligations.EventsLeaveTheHostSettings : Prop :=
  ∀ (c : Instr) (s t : State), Instr.fromHost c = false → exec c s = .next t →
    t.port.config = s.port.config ∧ t.port.locked = s.port.locked ∧ t.port.digest = s.port.digest ∧ t.port.masks = s.port.masks ∧
    t.port.notice = s.port.notice ∧ t.port.sdo = s.port.sdo ∧ t.port.capture = s.port.capture ∧ t.port.selected = s.port.selected ∧ t.ctl.number = s.ctl.number ∧
    ∀ f : EventFlag, s.port.flag f = true → t.port.flag f = true

/-- The law of the table sequence: a command leaves it, or advances it by one as a state frame applied, or founds at 1, or installs the train
sequence, or leaves the empty form. -/
def Obligations.SequenceMovesOnlyByApplyFoundInstallOrDiscard : Prop :=
  ∀ (c : Instr) (s t : State), exec c s = .next t →
    t.replica.sequence = s.replica.sequence ∨
    ((∃ f b, Instr.heardFrame c = some f ∧ stateBodyOf f.kind f.bytes = some b) ∨ (∃ k a, Instr.ownFrame c = some (k, a) ∧ k.isState = true)) ∧
      t.replica.sequence = s.replica.sequence + 1#16 ∨
    (∃ a, c = .join .own a ∧ t.replica.sequence = 1#16 ∧ t.ctl.state = .inStep) ∨
    (∃ h check a sh, c = .snapTail (.heard h check) a ∧ s.sync.shadow = some sh ∧ t.replica.sequence = sh.trainSequence) ∨
    t.replica.isEmptyForm

/-! ### Invariants -/

/-- The laws of the claim table are kept by every step of a station whose state and replica agree, but for the installation of another
station's table by a SNAP_TAIL heard, and by the apply of every state frame from every sender: STATE and HOLDERS agree, no station is named
twice, PERMIT and SHARED_OK bound holders and waiters, the head waiter is not grantable, members alone are named, and the pool counts the
waiters and never passes 48. -/
def Obligations.StepKeepsTheLawsOfTheTable : Prop :=
  (∀ s t : State, s.memberLaw → s.replica.lawful s.tableSize →
    (∀ (h : Head) (check : Word) (a : Answers) (rest : List Instr), s.pending ≠ .snapTail (.heard h check) a :: rest) →
    step s = .next t → t.replica.lawful t.tableSize) ∧
  (∀ (r : Replica) (ts : Nat) (x : Station) (b : StateBody), ts ≤ 64 → r.lawful ts → (r.apply ts x b).replica.lawful ts)

/-- The pool law is kept by every step. -/
def Obligations.StepKeepsThePoolLaw : Prop := ∀ s t : State, s.poolLaw → step s = .next t → t.poolLaw

/-- The agreement of station state and replica is kept by every step. -/
def Obligations.StepKeepsTheMemberLaw : Prop := ∀ s t : State, s.memberLaw → step s = .next t → t.memberLaw

/-- The law of contexts and completion queue is kept by every step, and beside it the law of the send list. -/
def Obligations.StepKeepsTheRequestAndSendListLaws : Prop :=
  (∀ s t : State, s.requestLaw → step s = .next t → t.requestLaw) ∧
  (∀ s t : State, s.requestLaw → s.sendListLaw → step s = .next t → t.sendListLaw)

/-- The bounds of the counts, the attempt counts of the send list and of the station frames among them, and the law of OFFLINE are kept by
every step; and so is the idle count's zero before START, in a frame, and while a fault holds the line dominant (log entry 24). That the counts go no higher than their limits and that the reject count of a MUTED station stays 16 are DEDUCED (log entries
8 and 9). -/
def Obligations.StepKeepsTheCountLineAndOfflineLaws : Prop :=
  (∀ s t : State, s.countLaw → step s = .next t → t.countLaw) ∧ (∀ s t : State, s.lineLaw → step s = .next t → t.lineLaw) ∧
  (∀ s t : State, s.offlineLaw → step s = .next t → t.offlineLaw)

/-- The laws hold right after reset. -/
def Obligations.LawsHoldAtReset : Prop :=
  State.reset.poolLaw ∧ State.reset.memberLaw ∧ State.reset.requestLaw ∧ State.reset.sendListLaw ∧ State.reset.countLaw ∧
  State.reset.lineLaw ∧ State.reset.offlineLaw ∧ State.reset.replica.lawful State.reset.tableSize ∧ State.reset.pending = []

/-! ### Encodings -/

/-- A frame's data slots read back as the frame, for every value of every field and every body LEN admits. A frame passes the checks of
Table 3-8 at a receiver of a TABLE_SIZE exactly when CHECK is the word computed over the slots before it, KIND is one of the twelve, CLASS and
LEN are the kind's, every resource index is below TABLE_SIZE, a SNAP_HEAD's codes and pool count are in range, and a SNAP_ENTRY is whole records
of such indices. What a station transmits passes them if its LEN and body do. -/
def Obligations.DataSlotsReadBackAndPassTheChecks : Prop :=
  (∀ f : RawFrame, f.body.length = f.len.toNat →
    readFrame (dataSlots f) = some f ∧ (dataSlots f).length = 49 + 8 * f.len.toNat) ∧
  (∀ (number : Station) (t : TxFrame) (ts : Nat), t.body.length ≤ 40 →
    frameGood ts (t.raw number) = (lenGood t.kind t.body.length && bodyGood ts t.kind t.body)) ∧
  (∀ (f : RawFrame) (ts : Nat), f.body.length = f.len.toNat →
    let kind := f.kind.toNat
    let len := f.len.toNat
    (frameGood ts f = true ↔
      f.check = checkBits 0xFFFF#16 (frameBits f) ∧ kind < 12 ∧
      f.cls.toNat = (if kind < 4 then 0 else if kind < 8 then 1 else if kind < 11 then 2 else 3) ∧
      (kind = 0 ∨ kind = 5 ∨ kind = 6 → len = 0) ∧ (kind = 7 ∨ kind = 8 ∨ kind = 9 ∨ kind = 10 → len = 1) ∧
      (kind = 3 → len = 2) ∧ (kind = 11 → len = 3) ∧ (kind = 4 → len = 4) ∧ (kind = 1 → len = 10) ∧ (kind = 2 → 6 ≤ len ∧ len ≤ 40) ∧
      (8 ≤ kind → ∀ b : Byte, f.body[0]? = some b → b.toNat < ts) ∧
      (kind = 1 → (∀ b : Byte, f.body[8]? = some b → b = 16#8 ∨ b = 32#8 ∨ b = 64#8) ∧
        (∀ b : Byte, f.body[9]? = some b → b.toNat ≤ 48) ∧
        ∀ x : Station, ((bytesBits (f.body.drop 4)).drop (2 * x.val)).take 2 ≠ [true, true]) ∧
      (kind = 2 → ∃ rs : List EntryRecord, recordsOf f.body = some rs ∧ ∀ r ∈ rs, r.index.toNat < ts)))

/-- Entry records and head bodies read back as what they were formed from. And a SNAP_ENTRY body is read record by record: six bytes and two
for each of its waiters, whose number is in the low four bits of the second byte; a body that ends within a record, and a record with STATE
11b, make it none. -/
def Obligations.SnapshotBodiesReadBack : Prop :=
  (∀ cs : List (Byte × ClaimState), (∀ c ∈ cs, c.2.waiters.length ≤ 15) →
    recordsOf (cs.flatMap fun c => c.2.recordBytes c.1) = some (cs.map fun c => { index := c.1, claim := c.2 })) ∧
  (∀ h : HeadFields, h.tableSize = 16 ∨ h.tableSize = 32 ∨ h.tableSize = 64 → h.poolInUse ≤ 48 → headOf h.bytes = some h) ∧
  (recordsOf [] = some [] ∧ (∀ body : List Byte, 1 ≤ body.length → body.length < 6 → recordsOf body = none) ∧
    ∀ (index sw h1 h0 g1 g0 : Byte) (rest : List Byte),
      let n := sw.toNat % 16
      let r := recordsOf (index :: sw :: h1 :: h0 :: g1 :: g0 :: rest)
      (rest.length < 2 * n → r = none) ∧ (sw.toNat / 64 = 3 → r = none) ∧
      (2 * n ≤ rest.length → ∀ st : HoldState, sw.toNat / 64 = st.code.toNat →
        r = (recordsOf (rest.drop (2 * n))).map fun more =>
          { index := index, claim := { state := st, holders := wordOf h1 h0, generation := wordOf g1 g0, waiters := parseWaiters (rest.take (2 * n)) } } :: more))

/-- A SNAP_ENTRY body is the whole records from the cursor on, at least one, at most 40 bytes, and stops only at TABLE_SIZE or where the
next record would not fit. -/
def Obligations.SnapEntryBodyIsWholeRecordsUpToFortyBytes : Prop :=
  ∀ s : State, s.sync.cursor < s.tableSize → (∀ i : Nat, (s.replica.entry i).waiters.length ≤ 15) →
    ∃ n : Nat, 1 ≤ n ∧ s.sync.cursor + n ≤ s.tableSize ∧
      s.entriesBody = (List.range n).flatMap (fun i => s.recordAt (s.sync.cursor + i)) ∧ s.entriesBody.length ≤ 40 ∧
      (s.sync.cursor + n < s.tableSize → 40 < s.entriesBody.length + (s.recordAt (s.sync.cursor + n)).length)

/-- A train carries the server's replica whole: the records read from its bytes fill a shadow opened from its head, the shadow passes the
three tests of the tail against the check the server sends, and a receiver with the server's block installs the server's replica. -/
def Obligations.TrainCarriesTheServersReplica : Prop :=
  ∀ s : State, s.replica.lawful s.tableSize → s.replica.valid = true → (∀ i : Nat, (s.replica.entry i).waiters.length ≤ 15) →
    (∀ i : Nat, i < s.tableSize → (s.replica.entry i).permit = s.port.permit i ∧ (s.replica.entry i).sharedOk = s.port.sharedOk i) →
    let head := s.headFields.bytes
    let records := (List.range s.tableSize).flatMap s.recordAt
    ∃ (hf : HeadFields) (rs : List EntryRecord) (sh : Shadow), headOf head = some hf ∧ recordsOf records = some rs ∧
      ({ source := s.ctl.number, trainSequence := hf.trainSequence, roster := hf.roster, poolInUse := hf.poolInUse, headBody := head,
         claims := [] } : Shadow).takeRecords rs = some sh ∧
      sh.good s.tableSize (checkBytes (checkBytes checkPreset head) records) = true ∧ s.port.installed sh = s.replica
end

