-- ==== Sys2Proof/Laws/Sets.lean ====
section
/-! SUPPORT. Station sets and event flags, member by member. -/

namespace Sys2Proof

theorem StationSet.has_zero (x : Station) : StationSet.has 0#16 x = false := by simp [StationSet.has]

theorem StationSet.has_addStation (s : StationSet) (x y : Station) : (s.addStation x).has y = (s.has y || decide (y = x)) := by
  revert x y
  simp only [StationSet.has, StationSet.addStation]
  intro x y
  have hx := x.isLt
  have hy := y.isLt
  simp only [BitVec.getLsbD_or, BitVec.getLsbD_shiftLeft, BitVec.getLsbD_one]
  congr 1
  by_cases h : y = x
  · subst h; simp
  · have hne : y.val ≠ x.val := fun e => h (Fin.ext e)
    simp only [h, decide_false]
    by_cases hlt : y.val < x.val
    · simp [hlt]
    · have : y.val - x.val ≠ 0 := by omega
      simp [this]

theorem StationSet.has_dropStation (s : StationSet) (x y : Station) : (s.dropStation x).has y = (s.has y && decide (y ≠ x)) := by
  simp only [StationSet.has, StationSet.dropStation]
  have hy := y.isLt
  simp only [BitVec.getLsbD_and, BitVec.getLsbD_not, BitVec.getLsbD_shiftLeft, BitVec.getLsbD_one]
  by_cases h : y = x
  · subst h; simp
  · have hne : y.val ≠ x.val := fun e => h (Fin.ext e)
    have : y.val < x.val ∨ y.val - x.val ≠ 0 := by omega
    rcases this with hlt | hsub
    · simp [h, hlt]
    · simp [h, hsub]

/-- Two sets with the same members are one set. -/
theorem StationSet.ext_has {s t : StationSet} (h : ∀ x : Station, s.has x = t.has x) : s = t := by
  apply BitVec.eq_of_getLsbD_eq
  intro i hi
  exact h ⟨i, hi⟩

/-- A set is empty exactly when it has no member. -/
theorem StationSet.eq_zero_iff (s : StationSet) : s = 0#16 ↔ ∀ x : Station, s.has x = false := by
  constructor
  · rintro rfl x
    exact StationSet.has_zero x
  · intro h
    exact StationSet.ext_has fun x => by rw [h x, StationSet.has_zero]

theorem StationSet.addStation_ne_zero (s : StationSet) (x : Station) : s.addStation x ≠ 0#16 := by
  intro h
  have := (StationSet.eq_zero_iff _).1 h x
  simp [StationSet.has_addStation] at this

/-- The lowest member is a member, and no smaller number is one. -/
theorem StationSet.lowest_spec {s : StationSet} {x : Station} (h : s.lowest = some x) :
    s.has x = true ∧ ∀ y : Station, y < x → s.has y = false := by
  unfold StationSet.lowest at h
  rw [List.find?_eq_some_iff_append] at h
  obtain ⟨hx, as, bs, hsplit, hbefore⟩ := h
  refine ⟨hx, fun y hy => ?_⟩
  have hsorted : ((List.finRange 16).Pairwise (· < ·)) := List.pairwise_lt_finRange 16
  have hmem : y ∈ as ++ x :: bs := hsplit ▸ List.mem_finRange y
  rw [hsplit, List.pairwise_append] at hsorted
  rcases List.mem_append.1 hmem with ha | hb
  · simpa using hbefore y ha
  · rcases List.mem_cons.1 hb with he | hb
    · exact absurd hy (by rw [he]; exact lt_irrefl x)
    · have := (List.pairwise_cons.1 hsorted.2.1).1 y hb
      exact absurd hy (lt_asymm this)

namespace Machine

theorem EventFlag.bit_injective {f g : EventFlag} (h : f.bit = g.bit) : f = g := by
  cases f <;> cases g <;> first | rfl | exact absurd h (by decide)

theorem EventFlag.bit_lt (f : EventFlag) : f.bit < 16 := by cases f <;> decide

/-- A reported flag is set, and every other stays as it was. -/
@[simp] theorem PortUnit.flag_raise (p : PortUnit) (f g : EventFlag) : (p.raise f).flag g = (p.flag g || decide (g = f)) := by
  simp only [PortUnit.flag, PortUnit.raise, EventFlag.mask]
  have hg := g.bit_lt
  simp only [BitVec.getLsbD_or, BitVec.getLsbD_shiftLeft, BitVec.getLsbD_one]
  congr 1
  by_cases h : g = f
  · subst h; simp [hg]
  · have hne : g.bit ≠ f.bit := fun e => h (EventFlag.bit_injective e)
    have : g.bit < f.bit ∨ g.bit - f.bit ≠ 0 := by omega
    rcases this with hlt | hsub
    · simp [h, hlt]
    · simp [h, hsub]

@[simp] theorem State.flag_raise (s : State) (f g : EventFlag) : (s.raise f).port.flag g = (s.port.flag g || decide (g = f)) :=
  s.port.flag_raise f g

end Machine

end Sys2Proof
end

