-- ==== Sys2Proof/Laws/State.lean ====
section
/-! SUPPORT. What each update of the state leaves as it was: one lemma for each unit or field and update, so that no later
proof unfolds a record update. -/

namespace Sys2Proof.Machine

/-! `PortUnit.raise` -/

@[simp] theorem PortUnit.raise_config (p : PortUnit) (f : EventFlag) : (p.raise f).config = p.config := rfl
@[simp] theorem PortUnit.raise_locked (p : PortUnit) (f : EventFlag) : (p.raise f).locked = p.locked := rfl
@[simp] theorem PortUnit.raise_digest (p : PortUnit) (f : EventFlag) : (p.raise f).digest = p.digest := rfl
@[simp] theorem PortUnit.raise_masks (p : PortUnit) (f : EventFlag) : (p.raise f).masks = p.masks := rfl
@[simp] theorem PortUnit.raise_notice (p : PortUnit) (f : EventFlag) : (p.raise f).notice = p.notice := rfl
@[simp] theorem PortUnit.raise_sdo (p : PortUnit) (f : EventFlag) : (p.raise f).sdo = p.sdo := rfl
@[simp] theorem PortUnit.raise_capture (p : PortUnit) (f : EventFlag) : (p.raise f).capture = p.capture := rfl
@[simp] theorem PortUnit.raise_selected (p : PortUnit) (f : EventFlag) : (p.raise f).selected = p.selected := rfl

/-! `PortUnit.writeBlock` -/

@[simp] theorem PortUnit.writeBlock_locked (p : PortUnit) (offset : Nat) (data : List Byte) : (p.writeBlock offset data).locked = p.locked :=
  by unfold PortUnit.writeBlock; rfl
@[simp] theorem PortUnit.writeBlock_digest (p : PortUnit) (offset : Nat) (data : List Byte) : (p.writeBlock offset data).digest = p.digest :=
  by unfold PortUnit.writeBlock; rfl
@[simp] theorem PortUnit.writeBlock_masks (p : PortUnit) (offset : Nat) (data : List Byte) : (p.writeBlock offset data).masks = p.masks :=
  by unfold PortUnit.writeBlock; rfl
@[simp] theorem PortUnit.writeBlock_notice (p : PortUnit) (offset : Nat) (data : List Byte) : (p.writeBlock offset data).notice = p.notice :=
  by unfold PortUnit.writeBlock; rfl
@[simp] theorem PortUnit.writeBlock_sdo (p : PortUnit) (offset : Nat) (data : List Byte) : (p.writeBlock offset data).sdo = p.sdo :=
  by unfold PortUnit.writeBlock; rfl
@[simp] theorem PortUnit.writeBlock_capture (p : PortUnit) (offset : Nat) (data : List Byte) : (p.writeBlock offset data).capture = p.capture :=
  by unfold PortUnit.writeBlock; rfl
@[simp] theorem PortUnit.writeBlock_selected (p : PortUnit) (offset : Nat) (data : List Byte) : (p.writeBlock offset data).selected = p.selected :=
  by unfold PortUnit.writeBlock; rfl
@[simp] theorem PortUnit.writeBlock_flags (p : PortUnit) (offset : Nat) (data : List Byte) : (p.writeBlock offset data).flags = p.flags :=
  by unfold PortUnit.writeBlock; rfl

/-! `Replica.setMembership` -/

@[simp] theorem Replica.setMembership_table (r : Replica) (x : Station) (m : Membership) : (r.setMembership x m).table = r.table := rfl
@[simp] theorem Replica.setMembership_poolInUse (r : Replica) (x : Station) (m : Membership) : (r.setMembership x m).poolInUse = r.poolInUse := rfl
@[simp] theorem Replica.setMembership_sequence (r : Replica) (x : Station) (m : Membership) : (r.setMembership x m).sequence = r.sequence := rfl
@[simp] theorem Replica.setMembership_valid (r : Replica) (x : Station) (m : Membership) : (r.setMembership x m).valid = r.valid := rfl

/-! `Replica.setEntry` -/

@[simp] theorem Replica.setEntry_roster (r : Replica) (i : Nat) (e : Entry) : (r.setEntry i e).roster = r.roster := rfl
@[simp] theorem Replica.setEntry_sequence (r : Replica) (i : Nat) (e : Entry) : (r.setEntry i e).sequence = r.sequence := rfl
@[simp] theorem Replica.setEntry_valid (r : Replica) (i : Nat) (e : Entry) : (r.setEntry i e).valid = r.valid := rfl

/-! `RequestUnit.update` -/

@[simp] theorem RequestUnit.update_queue (r : RequestUnit) (tag : Byte) (f : Context → Context) : (r.update tag f).queue = r.queue := rfl

/-! `ContentionUnit.stopArbitration` -/

@[simp] theorem ContentionUnit.stopArbitration_sendList (c : ContentionUnit) (p : OfferSource → Bool) : (c.stopArbitration p).sendList = c.sendList := rfl
@[simp] theorem ContentionUnit.stopArbitration_joinPending (c : ContentionUnit) (p : OfferSource → Bool) : (c.stopArbitration p).joinPending = c.joinPending := rfl
@[simp] theorem ContentionUnit.stopArbitration_leavePending (c : ContentionUnit) (p : OfferSource → Bool) : (c.stopArbitration p).leavePending = c.leavePending := rfl
@[simp] theorem ContentionUnit.stopArbitration_syncReqPending (c : ContentionUnit) (p : OfferSource → Bool) : (c.stopArbitration p).syncReqPending = c.syncReqPending :=
  rfl
@[simp] theorem ContentionUnit.stopArbitration_heartbeatDue (c : ContentionUnit) (p : OfferSource → Bool) : (c.stopArbitration p).heartbeatDue = c.heartbeatDue := rfl
@[simp] theorem ContentionUnit.stopArbitration_trainIntent (c : ContentionUnit) (p : OfferSource → Bool) : (c.stopArbitration p).trainIntent = c.trainIntent := rfl
@[simp] theorem ContentionUnit.stopArbitration_attempts (c : ContentionUnit) (p : OfferSource → Bool) : (c.stopArbitration p).attempts = c.attempts := rfl
@[simp] theorem ContentionUnit.stopArbitration_turnUsed (c : ContentionUnit) (p : OfferSource → Bool) : (c.stopArbitration p).turnUsed = c.turnUsed := rfl
@[simp] theorem ContentionUnit.stopArbitration_hold (c : ContentionUnit) (p : OfferSource → Bool) : (c.stopArbitration p).hold = c.hold := rfl
@[simp] theorem ContentionUnit.stopArbitration_silent (c : ContentionUnit) (p : OfferSource → Bool) : (c.stopArbitration p).silent = c.silent := rfl

/-! `ContentionUnit.addEntry` -/

@[simp] theorem ContentionUnit.addEntry_joinPending (c : ContentionUnit) (e : SendEntry) : (c.addEntry e).joinPending = c.joinPending := rfl
@[simp] theorem ContentionUnit.addEntry_leavePending (c : ContentionUnit) (e : SendEntry) : (c.addEntry e).leavePending = c.leavePending := rfl
@[simp] theorem ContentionUnit.addEntry_syncReqPending (c : ContentionUnit) (e : SendEntry) : (c.addEntry e).syncReqPending = c.syncReqPending := rfl
@[simp] theorem ContentionUnit.addEntry_heartbeatDue (c : ContentionUnit) (e : SendEntry) : (c.addEntry e).heartbeatDue = c.heartbeatDue := rfl
@[simp] theorem ContentionUnit.addEntry_trainIntent (c : ContentionUnit) (e : SendEntry) : (c.addEntry e).trainIntent = c.trainIntent := rfl
@[simp] theorem ContentionUnit.addEntry_attempts (c : ContentionUnit) (e : SendEntry) : (c.addEntry e).attempts = c.attempts := rfl
@[simp] theorem ContentionUnit.addEntry_turnUsed (c : ContentionUnit) (e : SendEntry) : (c.addEntry e).turnUsed = c.turnUsed := rfl
@[simp] theorem ContentionUnit.addEntry_hold (c : ContentionUnit) (e : SendEntry) : (c.addEntry e).hold = c.hold := rfl
@[simp] theorem ContentionUnit.addEntry_silent (c : ContentionUnit) (e : SendEntry) : (c.addEntry e).silent = c.silent := rfl
@[simp] theorem ContentionUnit.addEntry_offer (c : ContentionUnit) (e : SendEntry) : (c.addEntry e).offer = c.offer := rfl

/-! `ContentionUnit.removeEntries` -/

@[simp] theorem ContentionUnit.removeEntries_joinPending (c : ContentionUnit) (p : Byte → Bool) : (c.removeEntries p).joinPending = c.joinPending := rfl
@[simp] theorem ContentionUnit.removeEntries_leavePending (c : ContentionUnit) (p : Byte → Bool) : (c.removeEntries p).leavePending = c.leavePending := rfl
@[simp] theorem ContentionUnit.removeEntries_syncReqPending (c : ContentionUnit) (p : Byte → Bool) : (c.removeEntries p).syncReqPending = c.syncReqPending := rfl
@[simp] theorem ContentionUnit.removeEntries_heartbeatDue (c : ContentionUnit) (p : Byte → Bool) : (c.removeEntries p).heartbeatDue = c.heartbeatDue := rfl
@[simp] theorem ContentionUnit.removeEntries_trainIntent (c : ContentionUnit) (p : Byte → Bool) : (c.removeEntries p).trainIntent = c.trainIntent := rfl
@[simp] theorem ContentionUnit.removeEntries_attempts (c : ContentionUnit) (p : Byte → Bool) : (c.removeEntries p).attempts = c.attempts := rfl
@[simp] theorem ContentionUnit.removeEntries_turnUsed (c : ContentionUnit) (p : Byte → Bool) : (c.removeEntries p).turnUsed = c.turnUsed := rfl
@[simp] theorem ContentionUnit.removeEntries_hold (c : ContentionUnit) (p : Byte → Bool) : (c.removeEntries p).hold = c.hold := rfl
@[simp] theorem ContentionUnit.removeEntries_silent (c : ContentionUnit) (p : Byte → Bool) : (c.removeEntries p).silent = c.silent := rfl

/-! `ContentionUnit.removeEntry` -/

@[simp] theorem ContentionUnit.removeEntry_joinPending (c : ContentionUnit) (tag : Byte) : (c.removeEntry tag).joinPending = c.joinPending := rfl
@[simp] theorem ContentionUnit.removeEntry_leavePending (c : ContentionUnit) (tag : Byte) : (c.removeEntry tag).leavePending = c.leavePending := rfl
@[simp] theorem ContentionUnit.removeEntry_syncReqPending (c : ContentionUnit) (tag : Byte) : (c.removeEntry tag).syncReqPending = c.syncReqPending := rfl
@[simp] theorem ContentionUnit.removeEntry_heartbeatDue (c : ContentionUnit) (tag : Byte) : (c.removeEntry tag).heartbeatDue = c.heartbeatDue := rfl
@[simp] theorem ContentionUnit.removeEntry_trainIntent (c : ContentionUnit) (tag : Byte) : (c.removeEntry tag).trainIntent = c.trainIntent := rfl
@[simp] theorem ContentionUnit.removeEntry_attempts (c : ContentionUnit) (tag : Byte) : (c.removeEntry tag).attempts = c.attempts := rfl
@[simp] theorem ContentionUnit.removeEntry_turnUsed (c : ContentionUnit) (tag : Byte) : (c.removeEntry tag).turnUsed = c.turnUsed := rfl
@[simp] theorem ContentionUnit.removeEntry_hold (c : ContentionUnit) (tag : Byte) : (c.removeEntry tag).hold = c.hold := rfl
@[simp] theorem ContentionUnit.removeEntry_silent (c : ContentionUnit) (tag : Byte) : (c.removeEntry tag).silent = c.silent := rfl

/-! `ContentionUnit.updateEntry` -/

@[simp] theorem ContentionUnit.updateEntry_joinPending (c : ContentionUnit) (tag : Byte) (f : SendEntry → SendEntry) : (c.updateEntry tag f).joinPending = c.joinPending :=
  rfl
@[simp] theorem ContentionUnit.updateEntry_leavePending (c : ContentionUnit) (tag : Byte) (f : SendEntry → SendEntry) : (c.updateEntry tag f).leavePending = c.leavePending :=
  rfl
@[simp] theorem ContentionUnit.updateEntry_syncReqPending (c : ContentionUnit) (tag : Byte) (f : SendEntry → SendEntry) : (c.updateEntry tag f).syncReqPending = c.syncReqPending :=
  rfl
@[simp] theorem ContentionUnit.updateEntry_heartbeatDue (c : ContentionUnit) (tag : Byte) (f : SendEntry → SendEntry) : (c.updateEntry tag f).heartbeatDue = c.heartbeatDue :=
  rfl
@[simp] theorem ContentionUnit.updateEntry_trainIntent (c : ContentionUnit) (tag : Byte) (f : SendEntry → SendEntry) : (c.updateEntry tag f).trainIntent = c.trainIntent :=
  rfl
@[simp] theorem ContentionUnit.updateEntry_attempts (c : ContentionUnit) (tag : Byte) (f : SendEntry → SendEntry) : (c.updateEntry tag f).attempts = c.attempts := rfl
@[simp] theorem ContentionUnit.updateEntry_turnUsed (c : ContentionUnit) (tag : Byte) (f : SendEntry → SendEntry) : (c.updateEntry tag f).turnUsed = c.turnUsed := rfl
@[simp] theorem ContentionUnit.updateEntry_hold (c : ContentionUnit) (tag : Byte) (f : SendEntry → SendEntry) : (c.updateEntry tag f).hold = c.hold := rfl
@[simp] theorem ContentionUnit.updateEntry_silent (c : ContentionUnit) (tag : Byte) (f : SendEntry → SendEntry) : (c.updateEntry tag f).silent = c.silent := rfl
@[simp] theorem ContentionUnit.updateEntry_offer (c : ContentionUnit) (tag : Byte) (f : SendEntry → SendEntry) : (c.updateEntry tag f).offer = c.offer := rfl

/-! `ContentionUnit.clearStationFrames` -/

@[simp] theorem ContentionUnit.clearStationFrames_sendList (c : ContentionUnit) : c.clearStationFrames.sendList = c.sendList := rfl
@[simp] theorem ContentionUnit.clearStationFrames_turnUsed (c : ContentionUnit) : c.clearStationFrames.turnUsed = c.turnUsed := rfl
@[simp] theorem ContentionUnit.clearStationFrames_hold (c : ContentionUnit) : c.clearStationFrames.hold = c.hold := rfl
@[simp] theorem ContentionUnit.clearStationFrames_silent (c : ContentionUnit) : c.clearStationFrames.silent = c.silent := rfl

/-! `ContentionUnit.leaveMember` -/

@[simp] theorem ContentionUnit.leaveMember_sendList (c : ContentionUnit) : c.leaveMember.sendList = c.sendList := rfl
@[simp] theorem ContentionUnit.leaveMember_joinPending (c : ContentionUnit) : c.leaveMember.joinPending = c.joinPending := rfl
@[simp] theorem ContentionUnit.leaveMember_syncReqPending (c : ContentionUnit) : c.leaveMember.syncReqPending = c.syncReqPending := rfl
@[simp] theorem ContentionUnit.leaveMember_turnUsed (c : ContentionUnit) : c.leaveMember.turnUsed = c.turnUsed := rfl
@[simp] theorem ContentionUnit.leaveMember_hold (c : ContentionUnit) : c.leaveMember.hold = c.hold := rfl
@[simp] theorem ContentionUnit.leaveMember_silent (c : ContentionUnit) : c.leaveMember.silent = c.silent := rfl

/-! `ContentionUnit.clearSyncReq` -/

@[simp] theorem ContentionUnit.clearSyncReq_sendList (c : ContentionUnit) : c.clearSyncReq.sendList = c.sendList := rfl
@[simp] theorem ContentionUnit.clearSyncReq_joinPending (c : ContentionUnit) : c.clearSyncReq.joinPending = c.joinPending := rfl
@[simp] theorem ContentionUnit.clearSyncReq_leavePending (c : ContentionUnit) : c.clearSyncReq.leavePending = c.leavePending := rfl
@[simp] theorem ContentionUnit.clearSyncReq_heartbeatDue (c : ContentionUnit) : c.clearSyncReq.heartbeatDue = c.heartbeatDue := rfl
@[simp] theorem ContentionUnit.clearSyncReq_trainIntent (c : ContentionUnit) : c.clearSyncReq.trainIntent = c.trainIntent := rfl
@[simp] theorem ContentionUnit.clearSyncReq_turnUsed (c : ContentionUnit) : c.clearSyncReq.turnUsed = c.turnUsed := rfl
@[simp] theorem ContentionUnit.clearSyncReq_hold (c : ContentionUnit) : c.clearSyncReq.hold = c.hold := rfl
@[simp] theorem ContentionUnit.clearSyncReq_silent (c : ContentionUnit) : c.clearSyncReq.silent = c.silent := rfl

/-! `ContentionUnit.clearTrainIntent` -/

@[simp] theorem ContentionUnit.clearTrainIntent_sendList (c : ContentionUnit) : c.clearTrainIntent.sendList = c.sendList := rfl
@[simp] theorem ContentionUnit.clearTrainIntent_joinPending (c : ContentionUnit) : c.clearTrainIntent.joinPending = c.joinPending := rfl
@[simp] theorem ContentionUnit.clearTrainIntent_leavePending (c : ContentionUnit) : c.clearTrainIntent.leavePending = c.leavePending := rfl
@[simp] theorem ContentionUnit.clearTrainIntent_syncReqPending (c : ContentionUnit) : c.clearTrainIntent.syncReqPending = c.syncReqPending := rfl
@[simp] theorem ContentionUnit.clearTrainIntent_heartbeatDue (c : ContentionUnit) : c.clearTrainIntent.heartbeatDue = c.heartbeatDue := rfl
@[simp] theorem ContentionUnit.clearTrainIntent_turnUsed (c : ContentionUnit) : c.clearTrainIntent.turnUsed = c.turnUsed := rfl
@[simp] theorem ContentionUnit.clearTrainIntent_hold (c : ContentionUnit) : c.clearTrainIntent.hold = c.hold := rfl
@[simp] theorem ContentionUnit.clearTrainIntent_silent (c : ContentionUnit) : c.clearTrainIntent.silent = c.silent := rfl

/-! `ContentionUnit.loseArbitration` -/

@[simp] theorem ContentionUnit.loseArbitration_sendList (c : ContentionUnit) : c.loseArbitration.sendList = c.sendList := rfl
@[simp] theorem ContentionUnit.loseArbitration_joinPending (c : ContentionUnit) : c.loseArbitration.joinPending = c.joinPending := rfl
@[simp] theorem ContentionUnit.loseArbitration_leavePending (c : ContentionUnit) : c.loseArbitration.leavePending = c.leavePending := rfl
@[simp] theorem ContentionUnit.loseArbitration_syncReqPending (c : ContentionUnit) : c.loseArbitration.syncReqPending = c.syncReqPending := rfl
@[simp] theorem ContentionUnit.loseArbitration_heartbeatDue (c : ContentionUnit) : c.loseArbitration.heartbeatDue = c.heartbeatDue := rfl
@[simp] theorem ContentionUnit.loseArbitration_trainIntent (c : ContentionUnit) : c.loseArbitration.trainIntent = c.trainIntent := rfl
@[simp] theorem ContentionUnit.loseArbitration_attempts (c : ContentionUnit) : c.loseArbitration.attempts = c.attempts := rfl
@[simp] theorem ContentionUnit.loseArbitration_turnUsed (c : ContentionUnit) : c.loseArbitration.turnUsed = c.turnUsed := rfl
@[simp] theorem ContentionUnit.loseArbitration_hold (c : ContentionUnit) : c.loseArbitration.hold = c.hold := rfl
@[simp] theorem ContentionUnit.loseArbitration_silent (c : ContentionUnit) : c.loseArbitration.silent = c.silent := rfl

/-! `ContentionUnit.markCarried` -/

@[simp] theorem ContentionUnit.markCarried_joinPending (c : ContentionUnit) : c.markCarried.joinPending = c.joinPending := rfl
@[simp] theorem ContentionUnit.markCarried_leavePending (c : ContentionUnit) : c.markCarried.leavePending = c.leavePending := rfl
@[simp] theorem ContentionUnit.markCarried_syncReqPending (c : ContentionUnit) : c.markCarried.syncReqPending = c.syncReqPending := rfl
@[simp] theorem ContentionUnit.markCarried_heartbeatDue (c : ContentionUnit) : c.markCarried.heartbeatDue = c.heartbeatDue := rfl
@[simp] theorem ContentionUnit.markCarried_trainIntent (c : ContentionUnit) : c.markCarried.trainIntent = c.trainIntent := rfl
@[simp] theorem ContentionUnit.markCarried_attempts (c : ContentionUnit) : c.markCarried.attempts = c.attempts := rfl
@[simp] theorem ContentionUnit.markCarried_turnUsed (c : ContentionUnit) : c.markCarried.turnUsed = c.turnUsed := rfl
@[simp] theorem ContentionUnit.markCarried_hold (c : ContentionUnit) : c.markCarried.hold = c.hold := rfl
@[simp] theorem ContentionUnit.markCarried_silent (c : ContentionUnit) : c.markCarried.silent = c.silent := rfl
@[simp] theorem ContentionUnit.markCarried_offer (c : ContentionUnit) : c.markCarried.offer = c.offer := rfl

/-! `State.raise` -/

@[simp] theorem State.raise_ctl (s : State) (f : EventFlag) : (s.raise f).ctl = s.ctl := rfl
@[simp] theorem State.raise_line (s : State) (f : EventFlag) : (s.raise f).line = s.line := rfl
@[simp] theorem State.raise_cont (s : State) (f : EventFlag) : (s.raise f).cont = s.cont := rfl
@[simp] theorem State.raise_replica (s : State) (f : EventFlag) : (s.raise f).replica = s.replica := rfl
@[simp] theorem State.raise_lease (s : State) (f : EventFlag) : (s.raise f).lease = s.lease := rfl
@[simp] theorem State.raise_sync (s : State) (f : EventFlag) : (s.raise f).sync = s.sync := rfl
@[simp] theorem State.raise_req (s : State) (f : EventFlag) : (s.raise f).req = s.req := rfl
@[simp] theorem State.raise_pending (s : State) (f : EventFlag) : (s.raise f).pending = s.pending := rfl
@[simp] theorem State.raise_port_config (s : State) (f : EventFlag) : (s.raise f).port.config = s.port.config := rfl
@[simp] theorem State.raise_port_locked (s : State) (f : EventFlag) : (s.raise f).port.locked = s.port.locked := rfl
@[simp] theorem State.raise_port_digest (s : State) (f : EventFlag) : (s.raise f).port.digest = s.port.digest := rfl
@[simp] theorem State.raise_port_masks (s : State) (f : EventFlag) : (s.raise f).port.masks = s.port.masks := rfl
@[simp] theorem State.raise_port_notice (s : State) (f : EventFlag) : (s.raise f).port.notice = s.port.notice := rfl
@[simp] theorem State.raise_port_sdo (s : State) (f : EventFlag) : (s.raise f).port.sdo = s.port.sdo := rfl
@[simp] theorem State.raise_port_capture (s : State) (f : EventFlag) : (s.raise f).port.capture = s.port.capture := rfl
@[simp] theorem State.raise_port_selected (s : State) (f : EventFlag) : (s.raise f).port.selected = s.port.selected := rfl

/-! `State.shiftOut` -/

@[simp] theorem State.shiftOut_ctl (s : State) (inputs after : Nat) (out : List Byte) (t : State) : (State.shiftOut s inputs after out t).ctl = t.ctl := rfl
@[simp] theorem State.shiftOut_line (s : State) (inputs after : Nat) (out : List Byte) (t : State) : (State.shiftOut s inputs after out t).line = t.line := rfl
@[simp] theorem State.shiftOut_cont (s : State) (inputs after : Nat) (out : List Byte) (t : State) : (State.shiftOut s inputs after out t).cont = t.cont := rfl
@[simp] theorem State.shiftOut_replica (s : State) (inputs after : Nat) (out : List Byte) (t : State) : (State.shiftOut s inputs after out t).replica = t.replica := rfl
@[simp] theorem State.shiftOut_lease (s : State) (inputs after : Nat) (out : List Byte) (t : State) : (State.shiftOut s inputs after out t).lease = t.lease := rfl
@[simp] theorem State.shiftOut_sync (s : State) (inputs after : Nat) (out : List Byte) (t : State) : (State.shiftOut s inputs after out t).sync = t.sync := rfl
@[simp] theorem State.shiftOut_req (s : State) (inputs after : Nat) (out : List Byte) (t : State) : (State.shiftOut s inputs after out t).req = t.req := rfl
@[simp] theorem State.shiftOut_pending (s : State) (inputs after : Nat) (out : List Byte) (t : State) : (State.shiftOut s inputs after out t).pending = t.pending := rfl
@[simp] theorem State.shiftOut_port_config (s : State) (inputs after : Nat) (out : List Byte) (t : State) : (State.shiftOut s inputs after out t).port.config = t.port.config := rfl
@[simp] theorem State.shiftOut_port_locked (s : State) (inputs after : Nat) (out : List Byte) (t : State) : (State.shiftOut s inputs after out t).port.locked = t.port.locked := rfl
@[simp] theorem State.shiftOut_port_digest (s : State) (inputs after : Nat) (out : List Byte) (t : State) : (State.shiftOut s inputs after out t).port.digest = t.port.digest := rfl
@[simp] theorem State.shiftOut_port_masks (s : State) (inputs after : Nat) (out : List Byte) (t : State) : (State.shiftOut s inputs after out t).port.masks = t.port.masks := rfl
@[simp] theorem State.shiftOut_port_notice (s : State) (inputs after : Nat) (out : List Byte) (t : State) : (State.shiftOut s inputs after out t).port.notice = t.port.notice := rfl
@[simp] theorem State.shiftOut_port_flags (s : State) (inputs after : Nat) (out : List Byte) (t : State) : (State.shiftOut s inputs after out t).port.flags = t.port.flags := rfl

/-! `State.answerStatus` -/

@[simp] theorem State.answerStatus_ctl (s : State) (inputs after : Nat) (st : PortStatus) (t : State) : (State.answerStatus s inputs after st t).ctl = t.ctl := rfl
@[simp] theorem State.answerStatus_line (s : State) (inputs after : Nat) (st : PortStatus) (t : State) : (State.answerStatus s inputs after st t).line = t.line := rfl
@[simp] theorem State.answerStatus_cont (s : State) (inputs after : Nat) (st : PortStatus) (t : State) : (State.answerStatus s inputs after st t).cont = t.cont := rfl
@[simp] theorem State.answerStatus_replica (s : State) (inputs after : Nat) (st : PortStatus) (t : State) : (State.answerStatus s inputs after st t).replica = t.replica := rfl
@[simp] theorem State.answerStatus_lease (s : State) (inputs after : Nat) (st : PortStatus) (t : State) : (State.answerStatus s inputs after st t).lease = t.lease := rfl
@[simp] theorem State.answerStatus_sync (s : State) (inputs after : Nat) (st : PortStatus) (t : State) : (State.answerStatus s inputs after st t).sync = t.sync := rfl
@[simp] theorem State.answerStatus_req (s : State) (inputs after : Nat) (st : PortStatus) (t : State) : (State.answerStatus s inputs after st t).req = t.req := rfl
@[simp] theorem State.answerStatus_pending (s : State) (inputs after : Nat) (st : PortStatus) (t : State) : (State.answerStatus s inputs after st t).pending = t.pending := rfl
@[simp] theorem State.answerStatus_port_config (s : State) (inputs after : Nat) (st : PortStatus) (t : State) : (State.answerStatus s inputs after st t).port.config = t.port.config :=
  rfl
@[simp] theorem State.answerStatus_port_locked (s : State) (inputs after : Nat) (st : PortStatus) (t : State) : (State.answerStatus s inputs after st t).port.locked = t.port.locked :=
  rfl
@[simp] theorem State.answerStatus_port_digest (s : State) (inputs after : Nat) (st : PortStatus) (t : State) : (State.answerStatus s inputs after st t).port.digest = t.port.digest :=
  rfl
@[simp] theorem State.answerStatus_port_masks (s : State) (inputs after : Nat) (st : PortStatus) (t : State) : (State.answerStatus s inputs after st t).port.masks = t.port.masks :=
  rfl
@[simp] theorem State.answerStatus_port_notice (s : State) (inputs after : Nat) (st : PortStatus) (t : State) : (State.answerStatus s inputs after st t).port.notice = t.port.notice :=
  rfl
@[simp] theorem State.answerStatus_port_flags (s : State) (inputs after : Nat) (st : PortStatus) (t : State) : (State.answerStatus s inputs after st t).port.flags = t.port.flags :=
  rfl

/-! `State.setLease` -/

@[simp] theorem State.setLease_port (s : State) (x : Station) (us : Nat) : (s.setLease x us).port = s.port := by unfold State.setLease; split <;> rfl
@[simp] theorem State.setLease_ctl (s : State) (x : Station) (us : Nat) : (s.setLease x us).ctl = s.ctl := by unfold State.setLease; split <;> rfl
@[simp] theorem State.setLease_line (s : State) (x : Station) (us : Nat) : (s.setLease x us).line = s.line := by unfold State.setLease; split <;> rfl
@[simp] theorem State.setLease_cont (s : State) (x : Station) (us : Nat) : (s.setLease x us).cont = s.cont := by unfold State.setLease; split <;> rfl
@[simp] theorem State.setLease_replica (s : State) (x : Station) (us : Nat) : (s.setLease x us).replica = s.replica := by unfold State.setLease; split <;> rfl
@[simp] theorem State.setLease_sync (s : State) (x : Station) (us : Nat) : (s.setLease x us).sync = s.sync := by unfold State.setLease; split <;> rfl
@[simp] theorem State.setLease_req (s : State) (x : Station) (us : Nat) : (s.setLease x us).req = s.req := by unfold State.setLease; split <;> rfl
@[simp] theorem State.setLease_pending (s : State) (x : Station) (us : Nat) : (s.setLease x us).pending = s.pending := by unfold State.setLease; split <;> rfl
@[simp] theorem State.setLease_lease_reapSet (s : State) (x : Station) (us : Nat) : (s.setLease x us).lease.reapSet = s.lease.reapSet :=
  by unfold State.setLease; split <;> rfl
@[simp] theorem State.setLease_lease_heartbeat (s : State) (x : Station) (us : Nat) : (s.setLease x us).lease.heartbeat = s.lease.heartbeat :=
  by unfold State.setLease; split <;> rfl

/-! `State.dropReap` -/

@[simp] theorem State.dropReap_port (s : State) (x : Station) : (s.dropReap x).port = s.port := rfl
@[simp] theorem State.dropReap_ctl (s : State) (x : Station) : (s.dropReap x).ctl = s.ctl := rfl
@[simp] theorem State.dropReap_line (s : State) (x : Station) : (s.dropReap x).line = s.line := rfl
@[simp] theorem State.dropReap_replica (s : State) (x : Station) : (s.dropReap x).replica = s.replica := rfl
@[simp] theorem State.dropReap_sync (s : State) (x : Station) : (s.dropReap x).sync = s.sync := rfl
@[simp] theorem State.dropReap_req (s : State) (x : Station) : (s.dropReap x).req = s.req := rfl
@[simp] theorem State.dropReap_pending (s : State) (x : Station) : (s.dropReap x).pending = s.pending := rfl
@[simp] theorem State.dropReap_cont_sendList (s : State) (x : Station) : (s.dropReap x).cont.sendList = s.cont.sendList := rfl
@[simp] theorem State.dropReap_cont_joinPending (s : State) (x : Station) : (s.dropReap x).cont.joinPending = s.cont.joinPending := rfl
@[simp] theorem State.dropReap_cont_leavePending (s : State) (x : Station) : (s.dropReap x).cont.leavePending = s.cont.leavePending := rfl
@[simp] theorem State.dropReap_cont_syncReqPending (s : State) (x : Station) : (s.dropReap x).cont.syncReqPending = s.cont.syncReqPending := rfl
@[simp] theorem State.dropReap_cont_heartbeatDue (s : State) (x : Station) : (s.dropReap x).cont.heartbeatDue = s.cont.heartbeatDue := rfl
@[simp] theorem State.dropReap_cont_trainIntent (s : State) (x : Station) : (s.dropReap x).cont.trainIntent = s.cont.trainIntent := rfl
@[simp] theorem State.dropReap_cont_turnUsed (s : State) (x : Station) : (s.dropReap x).cont.turnUsed = s.cont.turnUsed := rfl
@[simp] theorem State.dropReap_cont_hold (s : State) (x : Station) : (s.dropReap x).cont.hold = s.cont.hold := rfl
@[simp] theorem State.dropReap_cont_silent (s : State) (x : Station) : (s.dropReap x).cont.silent = s.cont.silent := rfl
@[simp] theorem State.dropReap_cont_offer (s : State) (x : Station) : (s.dropReap x).cont.offer = s.cont.offer := rfl
@[simp] theorem State.dropReap_lease_remaining (s : State) (x : Station) : (s.dropReap x).lease.remaining = s.lease.remaining := rfl
@[simp] theorem State.dropReap_lease_heartbeat (s : State) (x : Station) : (s.dropReap x).lease.heartbeat = s.lease.heartbeat := rfl

/-! `State.endTrain` -/

@[simp] theorem State.endTrain_port (s : State) : s.endTrain.port = s.port := rfl
@[simp] theorem State.endTrain_ctl (s : State) : s.endTrain.ctl = s.ctl := rfl
@[simp] theorem State.endTrain_line (s : State) : s.endTrain.line = s.line := rfl
@[simp] theorem State.endTrain_replica (s : State) : s.endTrain.replica = s.replica := rfl
@[simp] theorem State.endTrain_lease (s : State) : s.endTrain.lease = s.lease := rfl
@[simp] theorem State.endTrain_req (s : State) : s.endTrain.req = s.req := rfl
@[simp] theorem State.endTrain_pending (s : State) : s.endTrain.pending = s.pending := rfl
@[simp] theorem State.endTrain_cont_sendList (s : State) : s.endTrain.cont.sendList = s.cont.sendList := rfl
@[simp] theorem State.endTrain_cont_joinPending (s : State) : s.endTrain.cont.joinPending = s.cont.joinPending := rfl
@[simp] theorem State.endTrain_cont_leavePending (s : State) : s.endTrain.cont.leavePending = s.cont.leavePending := rfl
@[simp] theorem State.endTrain_cont_syncReqPending (s : State) : s.endTrain.cont.syncReqPending = s.cont.syncReqPending := rfl
@[simp] theorem State.endTrain_cont_heartbeatDue (s : State) : s.endTrain.cont.heartbeatDue = s.cont.heartbeatDue := rfl
@[simp] theorem State.endTrain_cont_trainIntent (s : State) : s.endTrain.cont.trainIntent = s.cont.trainIntent := rfl
@[simp] theorem State.endTrain_cont_turnUsed (s : State) : s.endTrain.cont.turnUsed = s.cont.turnUsed := rfl
@[simp] theorem State.endTrain_cont_hold (s : State) : s.endTrain.cont.hold = s.cont.hold := rfl
@[simp] theorem State.endTrain_cont_silent (s : State) : s.endTrain.cont.silent = s.cont.silent := rfl
@[simp] theorem State.endTrain_cont_offer (s : State) : s.endTrain.cont.offer = s.cont.offer := rfl
@[simp] theorem State.endTrain_sync_shadow (s : State) : s.endTrain.sync.shadow = s.sync.shadow := rfl
@[simp] theorem State.endTrain_sync_retry (s : State) : s.endTrain.sync.retry = s.sync.retry := rfl

/-! `State.dropShadow` -/

@[simp] theorem State.dropShadow_port (s : State) : s.dropShadow.port = s.port := rfl
@[simp] theorem State.dropShadow_ctl (s : State) : s.dropShadow.ctl = s.ctl := rfl
@[simp] theorem State.dropShadow_line (s : State) : s.dropShadow.line = s.line := rfl
@[simp] theorem State.dropShadow_replica (s : State) : s.dropShadow.replica = s.replica := rfl
@[simp] theorem State.dropShadow_lease (s : State) : s.dropShadow.lease = s.lease := rfl
@[simp] theorem State.dropShadow_req (s : State) : s.dropShadow.req = s.req := rfl
@[simp] theorem State.dropShadow_pending (s : State) : s.dropShadow.pending = s.pending := rfl
@[simp] theorem State.dropShadow_cont_sendList (s : State) : s.dropShadow.cont.sendList = s.cont.sendList := rfl
@[simp] theorem State.dropShadow_cont_joinPending (s : State) : s.dropShadow.cont.joinPending = s.cont.joinPending := rfl
@[simp] theorem State.dropShadow_cont_leavePending (s : State) : s.dropShadow.cont.leavePending = s.cont.leavePending := rfl
@[simp] theorem State.dropShadow_cont_heartbeatDue (s : State) : s.dropShadow.cont.heartbeatDue = s.cont.heartbeatDue := rfl
@[simp] theorem State.dropShadow_cont_trainIntent (s : State) : s.dropShadow.cont.trainIntent = s.cont.trainIntent := rfl
@[simp] theorem State.dropShadow_cont_attempts (s : State) : s.dropShadow.cont.attempts = s.cont.attempts := rfl
@[simp] theorem State.dropShadow_cont_turnUsed (s : State) : s.dropShadow.cont.turnUsed = s.cont.turnUsed := rfl
@[simp] theorem State.dropShadow_cont_hold (s : State) : s.dropShadow.cont.hold = s.cont.hold := rfl
@[simp] theorem State.dropShadow_cont_silent (s : State) : s.dropShadow.cont.silent = s.cont.silent := rfl
@[simp] theorem State.dropShadow_cont_offer (s : State) : s.dropShadow.cont.offer = s.cont.offer := rfl
@[simp] theorem State.dropShadow_sync_phase (s : State) : s.dropShadow.sync.phase = s.sync.phase := rfl
@[simp] theorem State.dropShadow_sync_cursor (s : State) : s.dropShadow.sync.cursor = s.sync.cursor := rfl
@[simp] theorem State.dropShadow_sync_sendCheck (s : State) : s.dropShadow.sync.sendCheck = s.sync.sendCheck := rfl
@[simp] theorem State.dropShadow_sync_retry (s : State) : s.dropShadow.sync.retry = s.sync.retry := rfl

/-! `State.leaveMember` -/

@[simp] theorem State.leaveMember_port (s : State) : s.leaveMember.port = s.port := rfl
@[simp] theorem State.leaveMember_ctl (s : State) : s.leaveMember.ctl = s.ctl := rfl
@[simp] theorem State.leaveMember_line (s : State) : s.leaveMember.line = s.line := rfl
@[simp] theorem State.leaveMember_replica (s : State) : s.leaveMember.replica = s.replica := rfl
@[simp] theorem State.leaveMember_req (s : State) : s.leaveMember.req = s.req := rfl
@[simp] theorem State.leaveMember_pending (s : State) : s.leaveMember.pending = s.pending := rfl
@[simp] theorem State.leaveMember_cont_sendList (s : State) : s.leaveMember.cont.sendList = s.cont.sendList := rfl
@[simp] theorem State.leaveMember_cont_joinPending (s : State) : s.leaveMember.cont.joinPending = s.cont.joinPending := rfl
@[simp] theorem State.leaveMember_cont_syncReqPending (s : State) : s.leaveMember.cont.syncReqPending = s.cont.syncReqPending := rfl
@[simp] theorem State.leaveMember_cont_turnUsed (s : State) : s.leaveMember.cont.turnUsed = s.cont.turnUsed := rfl
@[simp] theorem State.leaveMember_cont_hold (s : State) : s.leaveMember.cont.hold = s.cont.hold := rfl
@[simp] theorem State.leaveMember_cont_silent (s : State) : s.leaveMember.cont.silent = s.cont.silent := rfl
@[simp] theorem State.leaveMember_sync_shadow (s : State) : s.leaveMember.sync.shadow = s.sync.shadow := rfl
@[simp] theorem State.leaveMember_sync_retry (s : State) : s.leaveMember.sync.retry = s.sync.retry := rfl

/-! `State.enterListening` -/

@[simp] theorem State.enterListening_port (s : State) : s.enterListening.port = s.port := rfl
@[simp] theorem State.enterListening_line (s : State) : s.enterListening.line = s.line := rfl
@[simp] theorem State.enterListening_replica (s : State) : s.enterListening.replica = s.replica := rfl
@[simp] theorem State.enterListening_lease (s : State) : s.enterListening.lease = s.lease := rfl
@[simp] theorem State.enterListening_sync (s : State) : s.enterListening.sync = s.sync := rfl
@[simp] theorem State.enterListening_req (s : State) : s.enterListening.req = s.req := rfl
@[simp] theorem State.enterListening_pending (s : State) : s.enterListening.pending = s.pending := rfl
@[simp] theorem State.enterListening_ctl_number (s : State) : s.enterListening.ctl.number = s.ctl.number := rfl
@[simp] theorem State.enterListening_ctl_nonceDraws (s : State) : s.enterListening.ctl.nonceDraws = s.ctl.nonceDraws := rfl
@[simp] theorem State.enterListening_ctl_cleanCount (s : State) : s.enterListening.ctl.cleanCount = s.ctl.cleanCount := rfl
@[simp] theorem State.enterListening_cont_sendList (s : State) : s.enterListening.cont.sendList = s.cont.sendList := rfl
@[simp] theorem State.enterListening_cont_leavePending (s : State) : s.enterListening.cont.leavePending = s.cont.leavePending := rfl
@[simp] theorem State.enterListening_cont_syncReqPending (s : State) : s.enterListening.cont.syncReqPending = s.cont.syncReqPending := rfl
@[simp] theorem State.enterListening_cont_heartbeatDue (s : State) : s.enterListening.cont.heartbeatDue = s.cont.heartbeatDue := rfl
@[simp] theorem State.enterListening_cont_trainIntent (s : State) : s.enterListening.cont.trainIntent = s.cont.trainIntent := rfl
@[simp] theorem State.enterListening_cont_turnUsed (s : State) : s.enterListening.cont.turnUsed = s.cont.turnUsed := rfl
@[simp] theorem State.enterListening_cont_hold (s : State) : s.enterListening.cont.hold = s.cont.hold := rfl
@[simp] theorem State.enterListening_cont_silent (s : State) : s.enterListening.cont.silent = s.cont.silent := rfl

/-! `State.enterEnd` -/

@[simp] theorem State.enterEnd_port (s : State) (st : StationState) : (s.enterEnd st).port = s.port := rfl
@[simp] theorem State.enterEnd_line (s : State) (st : StationState) : (s.enterEnd st).line = s.line := rfl
@[simp] theorem State.enterEnd_req (s : State) (st : StationState) : (s.enterEnd st).req = s.req := rfl
@[simp] theorem State.enterEnd_pending (s : State) (st : StationState) : (s.enterEnd st).pending = s.pending := rfl
@[simp] theorem State.enterEnd_ctl_number (s : State) (st : StationState) : (s.enterEnd st).ctl.number = s.ctl.number := rfl
@[simp] theorem State.enterEnd_ctl_nonceDraws (s : State) (st : StationState) : (s.enterEnd st).ctl.nonceDraws = s.ctl.nonceDraws := rfl
@[simp] theorem State.enterEnd_cont_turnUsed (s : State) (st : StationState) : (s.enterEnd st).cont.turnUsed = s.cont.turnUsed := rfl
@[simp] theorem State.enterEnd_cont_hold (s : State) (st : StationState) : (s.enterEnd st).cont.hold = s.cont.hold := rfl
@[simp] theorem State.enterEnd_cont_silent (s : State) (st : StationState) : (s.enterEnd st).cont.silent = s.cont.silent := rfl

/-! `State.expel` -/

@[simp] theorem State.expel_line (s : State) (st : StationState) (flag : EventFlag) (sequence : Word) : (s.expel st flag sequence).line = s.line := rfl
@[simp] theorem State.expel_pending (s : State) (st : StationState) (flag : EventFlag) (sequence : Word) : (s.expel st flag sequence).pending = s.pending := rfl
@[simp] theorem State.expel_port_config (s : State) (st : StationState) (flag : EventFlag) (sequence : Word) : (s.expel st flag sequence).port.config = s.port.config :=
  rfl
@[simp] theorem State.expel_port_locked (s : State) (st : StationState) (flag : EventFlag) (sequence : Word) : (s.expel st flag sequence).port.locked = s.port.locked :=
  rfl
@[simp] theorem State.expel_port_digest (s : State) (st : StationState) (flag : EventFlag) (sequence : Word) : (s.expel st flag sequence).port.digest = s.port.digest :=
  rfl
@[simp] theorem State.expel_port_masks (s : State) (st : StationState) (flag : EventFlag) (sequence : Word) : (s.expel st flag sequence).port.masks = s.port.masks := rfl
@[simp] theorem State.expel_port_notice (s : State) (st : StationState) (flag : EventFlag) (sequence : Word) : (s.expel st flag sequence).port.notice = s.port.notice :=
  rfl
@[simp] theorem State.expel_port_sdo (s : State) (st : StationState) (flag : EventFlag) (sequence : Word) : (s.expel st flag sequence).port.sdo = s.port.sdo := rfl
@[simp] theorem State.expel_port_capture (s : State) (st : StationState) (flag : EventFlag) (sequence : Word) : (s.expel st flag sequence).port.capture = s.port.capture :=
  rfl
@[simp] theorem State.expel_port_selected (s : State) (st : StationState) (flag : EventFlag) (sequence : Word) : (s.expel st flag sequence).port.selected = s.port.selected :=
  rfl
@[simp] theorem State.expel_ctl_number (s : State) (st : StationState) (flag : EventFlag) (sequence : Word) : (s.expel st flag sequence).ctl.number = s.ctl.number := rfl
@[simp] theorem State.expel_ctl_nonceDraws (s : State) (st : StationState) (flag : EventFlag) (sequence : Word) : (s.expel st flag sequence).ctl.nonceDraws = s.ctl.nonceDraws :=
  rfl
@[simp] theorem State.expel_cont_turnUsed (s : State) (st : StationState) (flag : EventFlag) (sequence : Word) : (s.expel st flag sequence).cont.turnUsed = s.cont.turnUsed :=
  rfl
@[simp] theorem State.expel_cont_hold (s : State) (st : StationState) (flag : EventFlag) (sequence : Word) : (s.expel st flag sequence).cont.hold = s.cont.hold := rfl
@[simp] theorem State.expel_cont_silent (s : State) (st : StationState) (flag : EventFlag) (sequence : Word) : (s.expel st flag sequence).cont.silent = s.cont.silent :=
  rfl

/-! `State.depart` -/

@[simp] theorem State.depart_port (s : State) (sequence : Word) : (s.depart sequence).port = s.port := rfl
@[simp] theorem State.depart_line (s : State) (sequence : Word) : (s.depart sequence).line = s.line := rfl
@[simp] theorem State.depart_pending (s : State) (sequence : Word) : (s.depart sequence).pending = s.pending := rfl
@[simp] theorem State.depart_ctl_number (s : State) (sequence : Word) : (s.depart sequence).ctl.number = s.ctl.number := rfl
@[simp] theorem State.depart_ctl_nonceDraws (s : State) (sequence : Word) : (s.depart sequence).ctl.nonceDraws = s.ctl.nonceDraws := rfl
@[simp] theorem State.depart_cont_turnUsed (s : State) (sequence : Word) : (s.depart sequence).cont.turnUsed = s.cont.turnUsed := rfl
@[simp] theorem State.depart_cont_hold (s : State) (sequence : Word) : (s.depart sequence).cont.hold = s.cont.hold := rfl
@[simp] theorem State.depart_cont_silent (s : State) (sequence : Word) : (s.depart sequence).cont.silent = s.cont.silent := rfl

/-! `State.loseStep` -/

@[simp] theorem State.loseStep_line (s : State) (quiet : Bool) : (s.loseStep quiet).line = s.line := by unfold State.loseStep; split <;> rfl
@[simp] theorem State.loseStep_req (s : State) (quiet : Bool) : (s.loseStep quiet).req = s.req := by unfold State.loseStep; split <;> rfl
@[simp] theorem State.loseStep_pending (s : State) (quiet : Bool) : (s.loseStep quiet).pending = s.pending := by unfold State.loseStep; split <;> rfl
@[simp] theorem State.loseStep_port_config (s : State) (quiet : Bool) : (s.loseStep quiet).port.config = s.port.config := by unfold State.loseStep; split <;> rfl
@[simp] theorem State.loseStep_port_locked (s : State) (quiet : Bool) : (s.loseStep quiet).port.locked = s.port.locked := by unfold State.loseStep; split <;> rfl
@[simp] theorem State.loseStep_port_digest (s : State) (quiet : Bool) : (s.loseStep quiet).port.digest = s.port.digest := by unfold State.loseStep; split <;> rfl
@[simp] theorem State.loseStep_port_masks (s : State) (quiet : Bool) : (s.loseStep quiet).port.masks = s.port.masks := by unfold State.loseStep; split <;> rfl
@[simp] theorem State.loseStep_port_notice (s : State) (quiet : Bool) : (s.loseStep quiet).port.notice = s.port.notice := by unfold State.loseStep; split <;> rfl
@[simp] theorem State.loseStep_port_sdo (s : State) (quiet : Bool) : (s.loseStep quiet).port.sdo = s.port.sdo := by unfold State.loseStep; split <;> rfl
@[simp] theorem State.loseStep_port_capture (s : State) (quiet : Bool) : (s.loseStep quiet).port.capture = s.port.capture := by unfold State.loseStep; split <;> rfl
@[simp] theorem State.loseStep_port_selected (s : State) (quiet : Bool) : (s.loseStep quiet).port.selected = s.port.selected := by unfold State.loseStep; split <;> rfl
@[simp] theorem State.loseStep_ctl_number (s : State) (quiet : Bool) : (s.loseStep quiet).ctl.number = s.ctl.number := by unfold State.loseStep; split <;> rfl
@[simp] theorem State.loseStep_ctl_nonceDraws (s : State) (quiet : Bool) : (s.loseStep quiet).ctl.nonceDraws = s.ctl.nonceDraws := by unfold State.loseStep; split <;> rfl
@[simp] theorem State.loseStep_ctl_joinWait (s : State) (quiet : Bool) : (s.loseStep quiet).ctl.joinWait = s.ctl.joinWait := by unfold State.loseStep; split <;> rfl
@[simp] theorem State.loseStep_ctl_heardState (s : State) (quiet : Bool) : (s.loseStep quiet).ctl.heardState = s.ctl.heardState := by unfold State.loseStep; split <;> rfl
@[simp] theorem State.loseStep_ctl_rejectCount (s : State) (quiet : Bool) : (s.loseStep quiet).ctl.rejectCount = s.ctl.rejectCount :=
  by unfold State.loseStep; split <;> rfl
@[simp] theorem State.loseStep_ctl_cleanCount (s : State) (quiet : Bool) : (s.loseStep quiet).ctl.cleanCount = s.ctl.cleanCount := by unfold State.loseStep; split <;> rfl
@[simp] theorem State.loseStep_cont_sendList (s : State) (quiet : Bool) : (s.loseStep quiet).cont.sendList = s.cont.sendList := by unfold State.loseStep; split <;> rfl
@[simp] theorem State.loseStep_cont_joinPending (s : State) (quiet : Bool) : (s.loseStep quiet).cont.joinPending = s.cont.joinPending :=
  by unfold State.loseStep; split <;> rfl
@[simp] theorem State.loseStep_cont_turnUsed (s : State) (quiet : Bool) : (s.loseStep quiet).cont.turnUsed = s.cont.turnUsed := by unfold State.loseStep; split <;> rfl
@[simp] theorem State.loseStep_cont_hold (s : State) (quiet : Bool) : (s.loseStep quiet).cont.hold = s.cont.hold := by unfold State.loseStep; split <;> rfl
@[simp] theorem State.loseStep_cont_silent (s : State) (quiet : Bool) : (s.loseStep quiet).cont.silent = s.cont.silent := by unfold State.loseStep; split <;> rfl
@[simp] theorem State.loseStep_replica_table (s : State) (quiet : Bool) : (s.loseStep quiet).replica.table = s.replica.table := by unfold State.loseStep; split <;> rfl
@[simp] theorem State.loseStep_replica_poolInUse (s : State) (quiet : Bool) : (s.loseStep quiet).replica.poolInUse = s.replica.poolInUse :=
  by unfold State.loseStep; split <;> rfl
@[simp] theorem State.loseStep_replica_roster (s : State) (quiet : Bool) : (s.loseStep quiet).replica.roster = s.replica.roster := by unfold State.loseStep; split <;> rfl
@[simp] theorem State.loseStep_replica_sequence (s : State) (quiet : Bool) : (s.loseStep quiet).replica.sequence = s.replica.sequence :=
  by unfold State.loseStep; split <;> rfl
@[simp] theorem State.loseStep_sync_shadow (s : State) (quiet : Bool) : (s.loseStep quiet).sync.shadow = s.sync.shadow := by unfold State.loseStep; split <;> rfl
@[simp] theorem State.loseStep_sync_retry (s : State) (quiet : Bool) : (s.loseStep quiet).sync.retry = s.sync.retry := by unfold State.loseStep; split <;> rfl

/-! `State.endByCause` -/

@[simp] theorem State.endByCause_port (s : State) (tag : Byte) (cause : Cause) : (s.endByCause tag cause).port = s.port :=
  by unfold State.endByCause; repeat' (first | rfl | split)
@[simp] theorem State.endByCause_ctl (s : State) (tag : Byte) (cause : Cause) : (s.endByCause tag cause).ctl = s.ctl :=
  by unfold State.endByCause; repeat' (first | rfl | split)
@[simp] theorem State.endByCause_line (s : State) (tag : Byte) (cause : Cause) : (s.endByCause tag cause).line = s.line :=
  by unfold State.endByCause; repeat' (first | rfl | split)
@[simp] theorem State.endByCause_replica (s : State) (tag : Byte) (cause : Cause) : (s.endByCause tag cause).replica = s.replica :=
  by unfold State.endByCause; repeat' (first | rfl | split)
@[simp] theorem State.endByCause_lease (s : State) (tag : Byte) (cause : Cause) : (s.endByCause tag cause).lease = s.lease :=
  by unfold State.endByCause; repeat' (first | rfl | split)
@[simp] theorem State.endByCause_sync (s : State) (tag : Byte) (cause : Cause) : (s.endByCause tag cause).sync = s.sync :=
  by unfold State.endByCause; repeat' (first | rfl | split)
@[simp] theorem State.endByCause_pending (s : State) (tag : Byte) (cause : Cause) : (s.endByCause tag cause).pending = s.pending :=
  by unfold State.endByCause; repeat' (first | rfl | split)
@[simp] theorem State.endByCause_cont_joinPending (s : State) (tag : Byte) (cause : Cause) : (s.endByCause tag cause).cont.joinPending = s.cont.joinPending :=
  by unfold State.endByCause; repeat' (first | rfl | split)
@[simp] theorem State.endByCause_cont_leavePending (s : State) (tag : Byte) (cause : Cause) : (s.endByCause tag cause).cont.leavePending = s.cont.leavePending :=
  by unfold State.endByCause; repeat' (first | rfl | split)
@[simp] theorem State.endByCause_cont_syncReqPending (s : State) (tag : Byte) (cause : Cause) : (s.endByCause tag cause).cont.syncReqPending = s.cont.syncReqPending :=
  by unfold State.endByCause; repeat' (first | rfl | split)
@[simp] theorem State.endByCause_cont_heartbeatDue (s : State) (tag : Byte) (cause : Cause) : (s.endByCause tag cause).cont.heartbeatDue = s.cont.heartbeatDue :=
  by unfold State.endByCause; repeat' (first | rfl | split)
@[simp] theorem State.endByCause_cont_trainIntent (s : State) (tag : Byte) (cause : Cause) : (s.endByCause tag cause).cont.trainIntent = s.cont.trainIntent :=
  by unfold State.endByCause; repeat' (first | rfl | split)
@[simp] theorem State.endByCause_cont_attempts (s : State) (tag : Byte) (cause : Cause) : (s.endByCause tag cause).cont.attempts = s.cont.attempts :=
  by unfold State.endByCause; repeat' (first | rfl | split)
@[simp] theorem State.endByCause_cont_turnUsed (s : State) (tag : Byte) (cause : Cause) : (s.endByCause tag cause).cont.turnUsed = s.cont.turnUsed :=
  by unfold State.endByCause; repeat' (first | rfl | split)
@[simp] theorem State.endByCause_cont_hold (s : State) (tag : Byte) (cause : Cause) : (s.endByCause tag cause).cont.hold = s.cont.hold :=
  by unfold State.endByCause; repeat' (first | rfl | split)
@[simp] theorem State.endByCause_cont_silent (s : State) (tag : Byte) (cause : Cause) : (s.endByCause tag cause).cont.silent = s.cont.silent :=
  by unfold State.endByCause; repeat' (first | rfl | split)

/-! `State.takeOutcome` -/

@[simp] theorem State.takeOutcome_port (s : State) (tag : Byte) (code : OutcomeCode) (generation sequence : Word) : (s.takeOutcome tag code generation sequence).port = s.port :=
  by unfold State.takeOutcome; repeat' (first | rfl | split)
@[simp] theorem State.takeOutcome_ctl (s : State) (tag : Byte) (code : OutcomeCode) (generation sequence : Word) : (s.takeOutcome tag code generation sequence).ctl = s.ctl :=
  by unfold State.takeOutcome; repeat' (first | rfl | split)
@[simp] theorem State.takeOutcome_line (s : State) (tag : Byte) (code : OutcomeCode) (generation sequence : Word) : (s.takeOutcome tag code generation sequence).line = s.line :=
  by unfold State.takeOutcome; repeat' (first | rfl | split)
@[simp] theorem State.takeOutcome_replica (s : State) (tag : Byte) (code : OutcomeCode) (generation sequence : Word) : (s.takeOutcome tag code generation sequence).replica = s.replica :=
  by unfold State.takeOutcome; repeat' (first | rfl | split)
@[simp] theorem State.takeOutcome_lease (s : State) (tag : Byte) (code : OutcomeCode) (generation sequence : Word) : (s.takeOutcome tag code generation sequence).lease = s.lease :=
  by unfold State.takeOutcome; repeat' (first | rfl | split)
@[simp] theorem State.takeOutcome_sync (s : State) (tag : Byte) (code : OutcomeCode) (generation sequence : Word) : (s.takeOutcome tag code generation sequence).sync = s.sync :=
  by unfold State.takeOutcome; repeat' (first | rfl | split)
@[simp] theorem State.takeOutcome_pending (s : State) (tag : Byte) (code : OutcomeCode) (generation sequence : Word) : (s.takeOutcome tag code generation sequence).pending = s.pending :=
  by unfold State.takeOutcome; repeat' (first | rfl | split)
@[simp] theorem State.takeOutcome_cont_joinPending (s : State) (tag : Byte) (code : OutcomeCode) (generation sequence : Word) : (s.takeOutcome tag code generation sequence).cont.joinPending = s.cont.joinPending :=
  by unfold State.takeOutcome; repeat' (first | rfl | split)
@[simp] theorem State.takeOutcome_cont_leavePending (s : State) (tag : Byte) (code : OutcomeCode) (generation sequence : Word) : (s.takeOutcome tag code generation sequence).cont.leavePending = s.cont.leavePending :=
  by unfold State.takeOutcome; repeat' (first | rfl | split)
@[simp] theorem State.takeOutcome_cont_syncReqPending (s : State) (tag : Byte) (code : OutcomeCode) (generation sequence : Word) : (s.takeOutcome tag code generation sequence).cont.syncReqPending = s.cont.syncReqPending :=
  by unfold State.takeOutcome; repeat' (first | rfl | split)
@[simp] theorem State.takeOutcome_cont_heartbeatDue (s : State) (tag : Byte) (code : OutcomeCode) (generation sequence : Word) : (s.takeOutcome tag code generation sequence).cont.heartbeatDue = s.cont.heartbeatDue :=
  by unfold State.takeOutcome; repeat' (first | rfl | split)
@[simp] theorem State.takeOutcome_cont_trainIntent (s : State) (tag : Byte) (code : OutcomeCode) (generation sequence : Word) : (s.takeOutcome tag code generation sequence).cont.trainIntent = s.cont.trainIntent :=
  by unfold State.takeOutcome; repeat' (first | rfl | split)
@[simp] theorem State.takeOutcome_cont_attempts (s : State) (tag : Byte) (code : OutcomeCode) (generation sequence : Word) : (s.takeOutcome tag code generation sequence).cont.attempts = s.cont.attempts :=
  by unfold State.takeOutcome; repeat' (first | rfl | split)
@[simp] theorem State.takeOutcome_cont_turnUsed (s : State) (tag : Byte) (code : OutcomeCode) (generation sequence : Word) : (s.takeOutcome tag code generation sequence).cont.turnUsed = s.cont.turnUsed :=
  by unfold State.takeOutcome; repeat' (first | rfl | split)
@[simp] theorem State.takeOutcome_cont_hold (s : State) (tag : Byte) (code : OutcomeCode) (generation sequence : Word) : (s.takeOutcome tag code generation sequence).cont.hold = s.cont.hold :=
  by unfold State.takeOutcome; repeat' (first | rfl | split)
@[simp] theorem State.takeOutcome_cont_silent (s : State) (tag : Byte) (code : OutcomeCode) (generation sequence : Word) : (s.takeOutcome tag code generation sequence).cont.silent = s.cont.silent :=
  by unfold State.takeOutcome; repeat' (first | rfl | split)
@[simp] theorem State.takeOutcome_cont_offer (s : State) (tag : Byte) (code : OutcomeCode) (generation sequence : Word) : (s.takeOutcome tag code generation sequence).cont.offer = s.cont.offer :=
  by unfold State.takeOutcome; repeat' (first | rfl | split)

/-! `State.notice` -/

@[simp] theorem State.notice_port (s : State) (sequence : Word) (g : TableGrant) : (s.notice sequence g).port = s.port := by unfold State.notice; split <;> rfl
@[simp] theorem State.notice_ctl (s : State) (sequence : Word) (g : TableGrant) : (s.notice sequence g).ctl = s.ctl := by unfold State.notice; split <;> rfl
@[simp] theorem State.notice_line (s : State) (sequence : Word) (g : TableGrant) : (s.notice sequence g).line = s.line := by unfold State.notice; split <;> rfl
@[simp] theorem State.notice_replica (s : State) (sequence : Word) (g : TableGrant) : (s.notice sequence g).replica = s.replica := by unfold State.notice; split <;> rfl
@[simp] theorem State.notice_lease (s : State) (sequence : Word) (g : TableGrant) : (s.notice sequence g).lease = s.lease := by unfold State.notice; split <;> rfl
@[simp] theorem State.notice_sync (s : State) (sequence : Word) (g : TableGrant) : (s.notice sequence g).sync = s.sync := by unfold State.notice; split <;> rfl
@[simp] theorem State.notice_pending (s : State) (sequence : Word) (g : TableGrant) : (s.notice sequence g).pending = s.pending := by unfold State.notice; split <;> rfl

/-! `State.afterApply` -/

@[simp] theorem State.afterApply_line (s : State) (own : Bool) (before : Replica) (sender : Station) (sequence : Word) (b : StateBody) : (s.afterApply own before sender sequence b).line = s.line :=
  by unfold State.afterApply; (repeat' split) <;> simp
@[simp] theorem State.afterApply_pending (s : State) (own : Bool) (before : Replica) (sender : Station) (sequence : Word) (b : StateBody) : (s.afterApply own before sender sequence b).pending = s.pending :=
  by unfold State.afterApply; (repeat' split) <;> simp
@[simp] theorem State.afterApply_port_config (s : State) (own : Bool) (before : Replica) (sender : Station) (sequence : Word) (b : StateBody) : (s.afterApply own before sender sequence b).port.config = s.port.config :=
  by unfold State.afterApply; (repeat' split) <;> simp
@[simp] theorem State.afterApply_port_locked (s : State) (own : Bool) (before : Replica) (sender : Station) (sequence : Word) (b : StateBody) : (s.afterApply own before sender sequence b).port.locked = s.port.locked :=
  by unfold State.afterApply; (repeat' split) <;> simp
@[simp] theorem State.afterApply_port_digest (s : State) (own : Bool) (before : Replica) (sender : Station) (sequence : Word) (b : StateBody) : (s.afterApply own before sender sequence b).port.digest = s.port.digest :=
  by unfold State.afterApply; (repeat' split) <;> simp
@[simp] theorem State.afterApply_port_masks (s : State) (own : Bool) (before : Replica) (sender : Station) (sequence : Word) (b : StateBody) : (s.afterApply own before sender sequence b).port.masks = s.port.masks :=
  by unfold State.afterApply; (repeat' split) <;> simp
@[simp] theorem State.afterApply_port_notice (s : State) (own : Bool) (before : Replica) (sender : Station) (sequence : Word) (b : StateBody) : (s.afterApply own before sender sequence b).port.notice = s.port.notice :=
  by unfold State.afterApply; (repeat' split) <;> simp
@[simp] theorem State.afterApply_port_sdo (s : State) (own : Bool) (before : Replica) (sender : Station) (sequence : Word) (b : StateBody) : (s.afterApply own before sender sequence b).port.sdo = s.port.sdo :=
  by unfold State.afterApply; (repeat' split) <;> simp
@[simp] theorem State.afterApply_port_capture (s : State) (own : Bool) (before : Replica) (sender : Station) (sequence : Word) (b : StateBody) : (s.afterApply own before sender sequence b).port.capture = s.port.capture :=
  by unfold State.afterApply; (repeat' split) <;> simp
@[simp] theorem State.afterApply_port_selected (s : State) (own : Bool) (before : Replica) (sender : Station) (sequence : Word) (b : StateBody) : (s.afterApply own before sender sequence b).port.selected = s.port.selected :=
  by unfold State.afterApply; (repeat' split) <;> simp
@[simp] theorem State.afterApply_ctl_number (s : State) (own : Bool) (before : Replica) (sender : Station) (sequence : Word) (b : StateBody) : (s.afterApply own before sender sequence b).ctl.number = s.ctl.number :=
  by unfold State.afterApply; (repeat' split) <;> simp
@[simp] theorem State.afterApply_ctl_nonceDraws (s : State) (own : Bool) (before : Replica) (sender : Station) (sequence : Word) (b : StateBody) : (s.afterApply own before sender sequence b).ctl.nonceDraws = s.ctl.nonceDraws :=
  by unfold State.afterApply; (repeat' split) <;> simp
@[simp] theorem State.afterApply_cont_turnUsed (s : State) (own : Bool) (before : Replica) (sender : Station) (sequence : Word) (b : StateBody) : (s.afterApply own before sender sequence b).cont.turnUsed = s.cont.turnUsed :=
  by unfold State.afterApply; (repeat' split) <;> simp
@[simp] theorem State.afterApply_cont_hold (s : State) (own : Bool) (before : Replica) (sender : Station) (sequence : Word) (b : StateBody) : (s.afterApply own before sender sequence b).cont.hold = s.cont.hold :=
  by unfold State.afterApply; (repeat' split) <;> simp
@[simp] theorem State.afterApply_cont_silent (s : State) (own : Bool) (before : Replica) (sender : Station) (sequence : Word) (b : StateBody) : (s.afterApply own before sender sequence b).cont.silent = s.cont.silent :=
  by unfold State.afterApply; (repeat' split) <;> simp

/-! `State.dropReaped` -/

@[simp] theorem State.dropReaped_port (s : State) (b : StateBody) : (s.dropReaped b).port = s.port := by unfold State.dropReaped; repeat' (first | rfl | split)
@[simp] theorem State.dropReaped_ctl (s : State) (b : StateBody) : (s.dropReaped b).ctl = s.ctl := by unfold State.dropReaped; repeat' (first | rfl | split)
@[simp] theorem State.dropReaped_line (s : State) (b : StateBody) : (s.dropReaped b).line = s.line := by unfold State.dropReaped; repeat' (first | rfl | split)
@[simp] theorem State.dropReaped_replica (s : State) (b : StateBody) : (s.dropReaped b).replica = s.replica := by unfold State.dropReaped; repeat' (first | rfl | split)
@[simp] theorem State.dropReaped_sync (s : State) (b : StateBody) : (s.dropReaped b).sync = s.sync := by unfold State.dropReaped; repeat' (first | rfl | split)
@[simp] theorem State.dropReaped_req (s : State) (b : StateBody) : (s.dropReaped b).req = s.req := by unfold State.dropReaped; repeat' (first | rfl | split)
@[simp] theorem State.dropReaped_pending (s : State) (b : StateBody) : (s.dropReaped b).pending = s.pending := by unfold State.dropReaped; repeat' (first | rfl | split)
@[simp] theorem State.dropReaped_cont_sendList (s : State) (b : StateBody) : (s.dropReaped b).cont.sendList = s.cont.sendList :=
  by unfold State.dropReaped; repeat' (first | rfl | split)
@[simp] theorem State.dropReaped_cont_joinPending (s : State) (b : StateBody) : (s.dropReaped b).cont.joinPending = s.cont.joinPending :=
  by unfold State.dropReaped; repeat' (first | rfl | split)
@[simp] theorem State.dropReaped_cont_leavePending (s : State) (b : StateBody) : (s.dropReaped b).cont.leavePending = s.cont.leavePending :=
  by unfold State.dropReaped; repeat' (first | rfl | split)
@[simp] theorem State.dropReaped_cont_syncReqPending (s : State) (b : StateBody) : (s.dropReaped b).cont.syncReqPending = s.cont.syncReqPending :=
  by unfold State.dropReaped; repeat' (first | rfl | split)
@[simp] theorem State.dropReaped_cont_heartbeatDue (s : State) (b : StateBody) : (s.dropReaped b).cont.heartbeatDue = s.cont.heartbeatDue :=
  by unfold State.dropReaped; repeat' (first | rfl | split)
@[simp] theorem State.dropReaped_cont_trainIntent (s : State) (b : StateBody) : (s.dropReaped b).cont.trainIntent = s.cont.trainIntent :=
  by unfold State.dropReaped; repeat' (first | rfl | split)
@[simp] theorem State.dropReaped_cont_turnUsed (s : State) (b : StateBody) : (s.dropReaped b).cont.turnUsed = s.cont.turnUsed :=
  by unfold State.dropReaped; repeat' (first | rfl | split)
@[simp] theorem State.dropReaped_cont_hold (s : State) (b : StateBody) : (s.dropReaped b).cont.hold = s.cont.hold :=
  by unfold State.dropReaped; repeat' (first | rfl | split)
@[simp] theorem State.dropReaped_cont_silent (s : State) (b : StateBody) : (s.dropReaped b).cont.silent = s.cont.silent :=
  by unfold State.dropReaped; repeat' (first | rfl | split)
@[simp] theorem State.dropReaped_cont_offer (s : State) (b : StateBody) : (s.dropReaped b).cont.offer = s.cont.offer :=
  by unfold State.dropReaped; repeat' (first | rfl | split)
@[simp] theorem State.dropReaped_lease_remaining (s : State) (b : StateBody) : (s.dropReaped b).lease.remaining = s.lease.remaining :=
  by unfold State.dropReaped; repeat' (first | rfl | split)
@[simp] theorem State.dropReaped_lease_heartbeat (s : State) (b : StateBody) : (s.dropReaped b).lease.heartbeat = s.lease.heartbeat :=
  by unfold State.dropReaped; repeat' (first | rfl | split)

/-! `State.restartHeartbeat` -/

@[simp] theorem State.restartHeartbeat_port (s : State) : s.restartHeartbeat.port = s.port := by unfold State.restartHeartbeat; split <;> rfl
@[simp] theorem State.restartHeartbeat_ctl (s : State) : s.restartHeartbeat.ctl = s.ctl := by unfold State.restartHeartbeat; split <;> rfl
@[simp] theorem State.restartHeartbeat_line (s : State) : s.restartHeartbeat.line = s.line := by unfold State.restartHeartbeat; split <;> rfl
@[simp] theorem State.restartHeartbeat_replica (s : State) : s.restartHeartbeat.replica = s.replica := by unfold State.restartHeartbeat; split <;> rfl
@[simp] theorem State.restartHeartbeat_sync (s : State) : s.restartHeartbeat.sync = s.sync := by unfold State.restartHeartbeat; split <;> rfl
@[simp] theorem State.restartHeartbeat_req (s : State) : s.restartHeartbeat.req = s.req := by unfold State.restartHeartbeat; split <;> rfl
@[simp] theorem State.restartHeartbeat_pending (s : State) : s.restartHeartbeat.pending = s.pending := by unfold State.restartHeartbeat; split <;> rfl
@[simp] theorem State.restartHeartbeat_cont_sendList (s : State) : s.restartHeartbeat.cont.sendList = s.cont.sendList := by unfold State.restartHeartbeat; split <;> rfl
@[simp] theorem State.restartHeartbeat_cont_joinPending (s : State) : s.restartHeartbeat.cont.joinPending = s.cont.joinPending :=
  by unfold State.restartHeartbeat; split <;> rfl
@[simp] theorem State.restartHeartbeat_cont_leavePending (s : State) : s.restartHeartbeat.cont.leavePending = s.cont.leavePending :=
  by unfold State.restartHeartbeat; split <;> rfl
@[simp] theorem State.restartHeartbeat_cont_syncReqPending (s : State) : s.restartHeartbeat.cont.syncReqPending = s.cont.syncReqPending :=
  by unfold State.restartHeartbeat; split <;> rfl
@[simp] theorem State.restartHeartbeat_cont_trainIntent (s : State) : s.restartHeartbeat.cont.trainIntent = s.cont.trainIntent :=
  by unfold State.restartHeartbeat; split <;> rfl
@[simp] theorem State.restartHeartbeat_cont_turnUsed (s : State) : s.restartHeartbeat.cont.turnUsed = s.cont.turnUsed := by unfold State.restartHeartbeat; split <;> rfl
@[simp] theorem State.restartHeartbeat_cont_hold (s : State) : s.restartHeartbeat.cont.hold = s.cont.hold := by unfold State.restartHeartbeat; split <;> rfl
@[simp] theorem State.restartHeartbeat_cont_silent (s : State) : s.restartHeartbeat.cont.silent = s.cont.silent := by unfold State.restartHeartbeat; split <;> rfl
@[simp] theorem State.restartHeartbeat_cont_offer (s : State) : s.restartHeartbeat.cont.offer = s.cont.offer := by unfold State.restartHeartbeat; split <;> rfl
@[simp] theorem State.restartHeartbeat_lease_remaining (s : State) : s.restartHeartbeat.lease.remaining = s.lease.remaining :=
  by unfold State.restartHeartbeat; split <;> rfl
@[simp] theorem State.restartHeartbeat_lease_reapSet (s : State) : s.restartHeartbeat.lease.reapSet = s.lease.reapSet := by unfold State.restartHeartbeat; split <;> rfl

/-! `State.frameEnds` -/

@[simp] theorem State.frameEnds_port (s : State) (rx : RxBuffer) (acc : Word) (answer : Option AnswerSlot) : (s.frameEnds rx acc answer).port = s.port := rfl
@[simp] theorem State.frameEnds_ctl (s : State) (rx : RxBuffer) (acc : Word) (answer : Option AnswerSlot) : (s.frameEnds rx acc answer).ctl = s.ctl := rfl
@[simp] theorem State.frameEnds_cont (s : State) (rx : RxBuffer) (acc : Word) (answer : Option AnswerSlot) : (s.frameEnds rx acc answer).cont = s.cont := rfl
@[simp] theorem State.frameEnds_replica (s : State) (rx : RxBuffer) (acc : Word) (answer : Option AnswerSlot) : (s.frameEnds rx acc answer).replica = s.replica := rfl
@[simp] theorem State.frameEnds_lease (s : State) (rx : RxBuffer) (acc : Word) (answer : Option AnswerSlot) : (s.frameEnds rx acc answer).lease = s.lease := rfl
@[simp] theorem State.frameEnds_sync (s : State) (rx : RxBuffer) (acc : Word) (answer : Option AnswerSlot) : (s.frameEnds rx acc answer).sync = s.sync := rfl
@[simp] theorem State.frameEnds_req (s : State) (rx : RxBuffer) (acc : Word) (answer : Option AnswerSlot) : (s.frameEnds rx acc answer).req = s.req := rfl
@[simp] theorem State.frameEnds_pending (s : State) (rx : RxBuffer) (acc : Word) (answer : Option AnswerSlot) : (s.frameEnds rx acc answer).pending = s.pending := rfl
@[simp] theorem State.frameEnds_line (s : State) (rx : RxBuffer) (acc : Word) (answer : Option AnswerSlot) :
    (s.frameEnds rx acc answer).line =
      { idleCount := 0, rx := rx, checkAcc := acc, answer := answer, overrun := false,
        dominantLeft := if s.line.inFrame then s.line.dominantLeft else 0 } := rfl

/-! `State.countClean` -/

@[simp] theorem State.countClean_port (s : State) : s.countClean.port = s.port := by unfold State.countClean; split <;> rfl
@[simp] theorem State.countClean_line (s : State) : s.countClean.line = s.line := by unfold State.countClean; split <;> rfl
@[simp] theorem State.countClean_cont (s : State) : s.countClean.cont = s.cont := by unfold State.countClean; split <;> rfl
@[simp] theorem State.countClean_replica (s : State) : s.countClean.replica = s.replica := by unfold State.countClean; split <;> rfl
@[simp] theorem State.countClean_lease (s : State) : s.countClean.lease = s.lease := by unfold State.countClean; split <;> rfl
@[simp] theorem State.countClean_sync (s : State) : s.countClean.sync = s.sync := by unfold State.countClean; split <;> rfl
@[simp] theorem State.countClean_req (s : State) : s.countClean.req = s.req := by unfold State.countClean; split <;> rfl
@[simp] theorem State.countClean_pending (s : State) : s.countClean.pending = s.pending := by unfold State.countClean; split <;> rfl
@[simp] theorem State.countClean_ctl_number (s : State) : s.countClean.ctl.number = s.ctl.number := by unfold State.countClean; split <;> rfl
@[simp] theorem State.countClean_ctl_nonceDraws (s : State) : s.countClean.ctl.nonceDraws = s.ctl.nonceDraws := by unfold State.countClean; split <;> rfl
@[simp] theorem State.countClean_ctl_state (s : State) : s.countClean.ctl.state = s.ctl.state := by unfold State.countClean; split <;> rfl
@[simp] theorem State.countClean_ctl_joinWait (s : State) : s.countClean.ctl.joinWait = s.ctl.joinWait := by unfold State.countClean; split <;> rfl
@[simp] theorem State.countClean_ctl_heardState (s : State) : s.countClean.ctl.heardState = s.ctl.heardState := by unfold State.countClean; split <;> rfl

/-! `State.countBad` -/

@[simp] theorem State.countBad_port (s : State) (rejected : Bool) : (s.countBad rejected).port = s.port := by unfold State.countBad; repeat' (first | rfl | split)
@[simp] theorem State.countBad_line (s : State) (rejected : Bool) : (s.countBad rejected).line = s.line := by unfold State.countBad; repeat' (first | rfl | split)
@[simp] theorem State.countBad_cont (s : State) (rejected : Bool) : (s.countBad rejected).cont = s.cont := by unfold State.countBad; repeat' (first | rfl | split)
@[simp] theorem State.countBad_replica (s : State) (rejected : Bool) : (s.countBad rejected).replica = s.replica :=
  by unfold State.countBad; repeat' (first | rfl | split)
@[simp] theorem State.countBad_lease (s : State) (rejected : Bool) : (s.countBad rejected).lease = s.lease := by unfold State.countBad; repeat' (first | rfl | split)
@[simp] theorem State.countBad_sync (s : State) (rejected : Bool) : (s.countBad rejected).sync = s.sync := by unfold State.countBad; repeat' (first | rfl | split)
@[simp] theorem State.countBad_req (s : State) (rejected : Bool) : (s.countBad rejected).req = s.req := by unfold State.countBad; repeat' (first | rfl | split)
@[simp] theorem State.countBad_pending (s : State) (rejected : Bool) : (s.countBad rejected).pending = s.pending :=
  by unfold State.countBad; repeat' (first | rfl | split)
@[simp] theorem State.countBad_ctl_number (s : State) (rejected : Bool) : (s.countBad rejected).ctl.number = s.ctl.number :=
  by unfold State.countBad; repeat' (first | rfl | split)
@[simp] theorem State.countBad_ctl_nonceDraws (s : State) (rejected : Bool) : (s.countBad rejected).ctl.nonceDraws = s.ctl.nonceDraws :=
  by unfold State.countBad; repeat' (first | rfl | split)
@[simp] theorem State.countBad_ctl_state (s : State) (rejected : Bool) : (s.countBad rejected).ctl.state = s.ctl.state :=
  by unfold State.countBad; repeat' (first | rfl | split)
@[simp] theorem State.countBad_ctl_joinWait (s : State) (rejected : Bool) : (s.countBad rejected).ctl.joinWait = s.ctl.joinWait :=
  by unfold State.countBad; repeat' (first | rfl | split)
@[simp] theorem State.countBad_ctl_heardState (s : State) (rejected : Bool) : (s.countBad rejected).ctl.heardState = s.ctl.heardState :=
  by unfold State.countBad; repeat' (first | rfl | split)

/-! `State.badFrame` -/

@[simp] theorem State.badFrame_port (s : State) (acc : Word) : (s.badFrame acc).port = s.port := by simp [State.badFrame]
@[simp] theorem State.badFrame_replica (s : State) (acc : Word) : (s.badFrame acc).replica = s.replica := by simp [State.badFrame]
@[simp] theorem State.badFrame_lease (s : State) (acc : Word) : (s.badFrame acc).lease = s.lease := by simp [State.badFrame]
@[simp] theorem State.badFrame_sync (s : State) (acc : Word) : (s.badFrame acc).sync = s.sync := by simp [State.badFrame]
@[simp] theorem State.badFrame_req (s : State) (acc : Word) : (s.badFrame acc).req = s.req := by simp [State.badFrame]
@[simp] theorem State.badFrame_pending (s : State) (acc : Word) : (s.badFrame acc).pending = s.pending := by simp [State.badFrame]
@[simp] theorem State.badFrame_ctl_number (s : State) (acc : Word) : (s.badFrame acc).ctl.number = s.ctl.number := by simp [State.badFrame]
@[simp] theorem State.badFrame_ctl_nonceDraws (s : State) (acc : Word) : (s.badFrame acc).ctl.nonceDraws = s.ctl.nonceDraws := by simp [State.badFrame]
@[simp] theorem State.badFrame_ctl_state (s : State) (acc : Word) : (s.badFrame acc).ctl.state = s.ctl.state := by simp [State.badFrame]
@[simp] theorem State.badFrame_ctl_joinWait (s : State) (acc : Word) : (s.badFrame acc).ctl.joinWait = s.ctl.joinWait := by simp [State.badFrame]
@[simp] theorem State.badFrame_ctl_heardState (s : State) (acc : Word) : (s.badFrame acc).ctl.heardState = s.ctl.heardState := by simp [State.badFrame]
@[simp] theorem State.badFrame_cont_sendList (s : State) (acc : Word) : (s.badFrame acc).cont.sendList = s.cont.sendList := by simp [State.badFrame]
@[simp] theorem State.badFrame_cont_joinPending (s : State) (acc : Word) : (s.badFrame acc).cont.joinPending = s.cont.joinPending := by simp [State.badFrame]
@[simp] theorem State.badFrame_cont_leavePending (s : State) (acc : Word) : (s.badFrame acc).cont.leavePending = s.cont.leavePending := by simp [State.badFrame]
@[simp] theorem State.badFrame_cont_syncReqPending (s : State) (acc : Word) : (s.badFrame acc).cont.syncReqPending = s.cont.syncReqPending := by simp [State.badFrame]
@[simp] theorem State.badFrame_cont_heartbeatDue (s : State) (acc : Word) : (s.badFrame acc).cont.heartbeatDue = s.cont.heartbeatDue := by simp [State.badFrame]
@[simp] theorem State.badFrame_cont_trainIntent (s : State) (acc : Word) : (s.badFrame acc).cont.trainIntent = s.cont.trainIntent := by simp [State.badFrame]
@[simp] theorem State.badFrame_cont_attempts (s : State) (acc : Word) : (s.badFrame acc).cont.attempts = s.cont.attempts := by simp [State.badFrame]
@[simp] theorem State.badFrame_cont_turnUsed (s : State) (acc : Word) : (s.badFrame acc).cont.turnUsed = s.cont.turnUsed := by simp [State.badFrame]
@[simp] theorem State.badFrame_cont_hold (s : State) (acc : Word) : (s.badFrame acc).cont.hold = s.cont.hold := by simp [State.badFrame]
@[simp] theorem State.badFrame_cont_silent (s : State) (acc : Word) : (s.badFrame acc).cont.silent = s.cont.silent := by simp [State.badFrame]

/-! `State.hear` -/

@[simp] theorem State.hear_port (s : State) (x : Station) : (s.hear x).port = s.port := by simp [State.hear]
@[simp] theorem State.hear_ctl (s : State) (x : Station) : (s.hear x).ctl = s.ctl := by simp [State.hear]
@[simp] theorem State.hear_line (s : State) (x : Station) : (s.hear x).line = s.line := by simp [State.hear]
@[simp] theorem State.hear_replica (s : State) (x : Station) : (s.hear x).replica = s.replica := by simp [State.hear]
@[simp] theorem State.hear_sync (s : State) (x : Station) : (s.hear x).sync = s.sync := by simp [State.hear]
@[simp] theorem State.hear_req (s : State) (x : Station) : (s.hear x).req = s.req := by simp [State.hear]
@[simp] theorem State.hear_pending (s : State) (x : Station) : (s.hear x).pending = s.pending := by simp [State.hear]
@[simp] theorem State.hear_cont_sendList (s : State) (x : Station) : (s.hear x).cont.sendList = s.cont.sendList := by simp [State.hear]
@[simp] theorem State.hear_cont_joinPending (s : State) (x : Station) : (s.hear x).cont.joinPending = s.cont.joinPending := by simp [State.hear]
@[simp] theorem State.hear_cont_leavePending (s : State) (x : Station) : (s.hear x).cont.leavePending = s.cont.leavePending := by simp [State.hear]
@[simp] theorem State.hear_cont_syncReqPending (s : State) (x : Station) : (s.hear x).cont.syncReqPending = s.cont.syncReqPending := by simp [State.hear]
@[simp] theorem State.hear_cont_heartbeatDue (s : State) (x : Station) : (s.hear x).cont.heartbeatDue = s.cont.heartbeatDue := by simp [State.hear]
@[simp] theorem State.hear_cont_trainIntent (s : State) (x : Station) : (s.hear x).cont.trainIntent = s.cont.trainIntent := by simp [State.hear]
@[simp] theorem State.hear_cont_turnUsed (s : State) (x : Station) : (s.hear x).cont.turnUsed = s.cont.turnUsed := by simp [State.hear]
@[simp] theorem State.hear_cont_hold (s : State) (x : Station) : (s.hear x).cont.hold = s.cont.hold := by simp [State.hear]
@[simp] theorem State.hear_cont_silent (s : State) (x : Station) : (s.hear x).cont.silent = s.cont.silent := by simp [State.hear]
@[simp] theorem State.hear_cont_offer (s : State) (x : Station) : (s.hear x).cont.offer = s.cont.offer := by simp [State.hear]
@[simp] theorem State.hear_lease_heartbeat (s : State) (x : Station) : (s.hear x).lease.heartbeat = s.lease.heartbeat := by simp [State.hear]

/-! `State.passArbitration` -/

@[simp] theorem State.passArbitration_port (s : State) : s.passArbitration.port = s.port := by unfold State.passArbitration; repeat' (first | rfl | split)
@[simp] theorem State.passArbitration_ctl (s : State) : s.passArbitration.ctl = s.ctl := by unfold State.passArbitration; repeat' (first | rfl | split)
@[simp] theorem State.passArbitration_line_idleCount (s : State) : s.passArbitration.line.idleCount = s.line.idleCount := by
  unfold State.passArbitration; repeat' (first | rfl | split)
@[simp] theorem State.passArbitration_line_answer (s : State) : s.passArbitration.line.answer = s.line.answer := by
  unfold State.passArbitration; repeat' (first | rfl | split)
@[simp] theorem State.passArbitration_line_overrun (s : State) : s.passArbitration.line.overrun = s.line.overrun := by
  unfold State.passArbitration; repeat' (first | rfl | split)
@[simp] theorem State.passArbitration_line_dominantLeft (s : State) : s.passArbitration.line.dominantLeft = s.line.dominantLeft := by
  unfold State.passArbitration; repeat' (first | rfl | split)
@[simp] theorem State.passArbitration_replica (s : State) : s.passArbitration.replica = s.replica := by unfold State.passArbitration; repeat' (first | rfl | split)
@[simp] theorem State.passArbitration_lease (s : State) : s.passArbitration.lease = s.lease := by unfold State.passArbitration; repeat' (first | rfl | split)
@[simp] theorem State.passArbitration_sync (s : State) : s.passArbitration.sync = s.sync := by unfold State.passArbitration; repeat' (first | rfl | split)
@[simp] theorem State.passArbitration_pending (s : State) : s.passArbitration.pending = s.pending := by unfold State.passArbitration; repeat' (first | rfl | split)
@[simp] theorem State.passArbitration_cont_sendList (s : State) : s.passArbitration.cont.sendList = s.cont.sendList :=
  by unfold State.passArbitration; repeat' (first | rfl | split)
@[simp] theorem State.passArbitration_cont_joinPending (s : State) : s.passArbitration.cont.joinPending = s.cont.joinPending :=
  by unfold State.passArbitration; repeat' (first | rfl | split)
@[simp] theorem State.passArbitration_cont_leavePending (s : State) : s.passArbitration.cont.leavePending = s.cont.leavePending :=
  by unfold State.passArbitration; repeat' (first | rfl | split)
@[simp] theorem State.passArbitration_cont_syncReqPending (s : State) : s.passArbitration.cont.syncReqPending = s.cont.syncReqPending :=
  by unfold State.passArbitration; repeat' (first | rfl | split)
@[simp] theorem State.passArbitration_cont_heartbeatDue (s : State) : s.passArbitration.cont.heartbeatDue = s.cont.heartbeatDue :=
  by unfold State.passArbitration; repeat' (first | rfl | split)
@[simp] theorem State.passArbitration_cont_trainIntent (s : State) : s.passArbitration.cont.trainIntent = s.cont.trainIntent :=
  by unfold State.passArbitration; repeat' (first | rfl | split)
@[simp] theorem State.passArbitration_cont_attempts (s : State) : s.passArbitration.cont.attempts = s.cont.attempts :=
  by unfold State.passArbitration; repeat' (first | rfl | split)
@[simp] theorem State.passArbitration_cont_turnUsed (s : State) : s.passArbitration.cont.turnUsed = s.cont.turnUsed :=
  by unfold State.passArbitration; repeat' (first | rfl | split)
@[simp] theorem State.passArbitration_cont_hold (s : State) : s.passArbitration.cont.hold = s.cont.hold := by unfold State.passArbitration; repeat' (first | rfl | split)
@[simp] theorem State.passArbitration_cont_silent (s : State) : s.passArbitration.cont.silent = s.cont.silent :=
  by unfold State.passArbitration; repeat' (first | rfl | split)
@[simp] theorem State.passArbitration_req_queue (s : State) : s.passArbitration.req.queue = s.req.queue := by unfold State.passArbitration; repeat' (first | rfl | split)

/-! `State.failAttempt` -/

@[simp] theorem State.failAttempt_port (s : State) (src : OfferSource) : (s.failAttempt src).port = s.port := by unfold State.failAttempt; repeat' (first | rfl | split)
@[simp] theorem State.failAttempt_ctl (s : State) (src : OfferSource) : (s.failAttempt src).ctl = s.ctl := by unfold State.failAttempt; repeat' (first | rfl | split)
@[simp] theorem State.failAttempt_line (s : State) (src : OfferSource) : (s.failAttempt src).line = s.line := by unfold State.failAttempt; repeat' (first | rfl | split)
@[simp] theorem State.failAttempt_replica (s : State) (src : OfferSource) : (s.failAttempt src).replica = s.replica :=
  by unfold State.failAttempt; repeat' (first | rfl | split)
@[simp] theorem State.failAttempt_lease (s : State) (src : OfferSource) : (s.failAttempt src).lease = s.lease :=
  by unfold State.failAttempt; repeat' (first | rfl | split)
@[simp] theorem State.failAttempt_sync (s : State) (src : OfferSource) : (s.failAttempt src).sync = s.sync := by unfold State.failAttempt; repeat' (first | rfl | split)
@[simp] theorem State.failAttempt_pending (s : State) (src : OfferSource) : (s.failAttempt src).pending = s.pending :=
  by unfold State.failAttempt; repeat' (first | rfl | split)
@[simp] theorem State.failAttempt_cont_joinPending (s : State) (src : OfferSource) : (s.failAttempt src).cont.joinPending = s.cont.joinPending :=
  by unfold State.failAttempt; repeat' (first | rfl | split)
@[simp] theorem State.failAttempt_cont_leavePending (s : State) (src : OfferSource) : (s.failAttempt src).cont.leavePending = s.cont.leavePending :=
  by unfold State.failAttempt; repeat' (first | rfl | split)
@[simp] theorem State.failAttempt_cont_syncReqPending (s : State) (src : OfferSource) : (s.failAttempt src).cont.syncReqPending = s.cont.syncReqPending :=
  by unfold State.failAttempt; repeat' (first | rfl | split)
@[simp] theorem State.failAttempt_cont_heartbeatDue (s : State) (src : OfferSource) : (s.failAttempt src).cont.heartbeatDue = s.cont.heartbeatDue :=
  by unfold State.failAttempt; repeat' (first | rfl | split)
@[simp] theorem State.failAttempt_cont_trainIntent (s : State) (src : OfferSource) : (s.failAttempt src).cont.trainIntent = s.cont.trainIntent :=
  by unfold State.failAttempt; repeat' (first | rfl | split)
@[simp] theorem State.failAttempt_cont_turnUsed (s : State) (src : OfferSource) : (s.failAttempt src).cont.turnUsed = s.cont.turnUsed :=
  by unfold State.failAttempt; repeat' (first | rfl | split)
@[simp] theorem State.failAttempt_cont_hold (s : State) (src : OfferSource) : (s.failAttempt src).cont.hold = s.cont.hold :=
  by unfold State.failAttempt; repeat' (first | rfl | split)
@[simp] theorem State.failAttempt_cont_silent (s : State) (src : OfferSource) : (s.failAttempt src).cont.silent = s.cont.silent :=
  by unfold State.failAttempt; repeat' (first | rfl | split)

/-! `State.clearOffer` -/

@[simp] theorem State.clearOffer_port (s : State) : s.clearOffer.port = s.port := rfl
@[simp] theorem State.clearOffer_ctl (s : State) : s.clearOffer.ctl = s.ctl := rfl
@[simp] theorem State.clearOffer_line (s : State) : s.clearOffer.line = s.line := rfl
@[simp] theorem State.clearOffer_replica (s : State) : s.clearOffer.replica = s.replica := rfl
@[simp] theorem State.clearOffer_lease (s : State) : s.clearOffer.lease = s.lease := rfl
@[simp] theorem State.clearOffer_sync (s : State) : s.clearOffer.sync = s.sync := rfl
@[simp] theorem State.clearOffer_req (s : State) : s.clearOffer.req = s.req := rfl
@[simp] theorem State.clearOffer_pending (s : State) : s.clearOffer.pending = s.pending := rfl
@[simp] theorem State.clearOffer_cont_sendList (s : State) : s.clearOffer.cont.sendList = s.cont.sendList := rfl
@[simp] theorem State.clearOffer_cont_joinPending (s : State) : s.clearOffer.cont.joinPending = s.cont.joinPending := rfl
@[simp] theorem State.clearOffer_cont_leavePending (s : State) : s.clearOffer.cont.leavePending = s.cont.leavePending := rfl
@[simp] theorem State.clearOffer_cont_syncReqPending (s : State) : s.clearOffer.cont.syncReqPending = s.cont.syncReqPending := rfl
@[simp] theorem State.clearOffer_cont_heartbeatDue (s : State) : s.clearOffer.cont.heartbeatDue = s.cont.heartbeatDue := rfl
@[simp] theorem State.clearOffer_cont_trainIntent (s : State) : s.clearOffer.cont.trainIntent = s.cont.trainIntent := rfl
@[simp] theorem State.clearOffer_cont_attempts (s : State) : s.clearOffer.cont.attempts = s.cont.attempts := rfl
@[simp] theorem State.clearOffer_cont_turnUsed (s : State) : s.clearOffer.cont.turnUsed = s.cont.turnUsed := rfl
@[simp] theorem State.clearOffer_cont_hold (s : State) : s.clearOffer.cont.hold = s.cont.hold := rfl
@[simp] theorem State.clearOffer_cont_silent (s : State) : s.clearOffer.cont.silent = s.cont.silent := rfl

/-! `State.endSource` -/

@[simp] theorem State.endSource_port (s : State) (src : OfferSource) : (s.endSource src).port = s.port := by unfold State.endSource; split <;> rfl
@[simp] theorem State.endSource_ctl (s : State) (src : OfferSource) : (s.endSource src).ctl = s.ctl := by unfold State.endSource; split <;> rfl
@[simp] theorem State.endSource_line (s : State) (src : OfferSource) : (s.endSource src).line = s.line := by unfold State.endSource; split <;> rfl
@[simp] theorem State.endSource_replica (s : State) (src : OfferSource) : (s.endSource src).replica = s.replica := by unfold State.endSource; split <;> rfl
@[simp] theorem State.endSource_lease (s : State) (src : OfferSource) : (s.endSource src).lease = s.lease := by unfold State.endSource; split <;> rfl
@[simp] theorem State.endSource_sync (s : State) (src : OfferSource) : (s.endSource src).sync = s.sync := by unfold State.endSource; split <;> rfl
@[simp] theorem State.endSource_req (s : State) (src : OfferSource) : (s.endSource src).req = s.req := by unfold State.endSource; split <;> rfl
@[simp] theorem State.endSource_pending (s : State) (src : OfferSource) : (s.endSource src).pending = s.pending := by unfold State.endSource; split <;> rfl
@[simp] theorem State.endSource_cont_heartbeatDue (s : State) (src : OfferSource) : (s.endSource src).cont.heartbeatDue = s.cont.heartbeatDue :=
  by unfold State.endSource; split <;> rfl
@[simp] theorem State.endSource_cont_trainIntent (s : State) (src : OfferSource) : (s.endSource src).cont.trainIntent = s.cont.trainIntent :=
  by unfold State.endSource; split <;> rfl
@[simp] theorem State.endSource_cont_turnUsed (s : State) (src : OfferSource) : (s.endSource src).cont.turnUsed = s.cont.turnUsed :=
  by unfold State.endSource; split <;> rfl
@[simp] theorem State.endSource_cont_hold (s : State) (src : OfferSource) : (s.endSource src).cont.hold = s.cont.hold := by unfold State.endSource; split <;> rfl
@[simp] theorem State.endSource_cont_silent (s : State) (src : OfferSource) : (s.endSource src).cont.silent = s.cont.silent := by unfold State.endSource; split <;> rfl

/-! `State.staleSend` -/

@[simp] theorem State.staleSend_line (s : State) (src : OfferSource) : (s.staleSend src).line = s.line := by unfold State.staleSend; (repeat' split) <;> simp
@[simp] theorem State.staleSend_pending (s : State) (src : OfferSource) : (s.staleSend src).pending = s.pending := by unfold State.staleSend; (repeat' split) <;> simp
@[simp] theorem State.staleSend_port_config (s : State) (src : OfferSource) : (s.staleSend src).port.config = s.port.config :=
  by unfold State.staleSend; (repeat' split) <;> simp
@[simp] theorem State.staleSend_port_locked (s : State) (src : OfferSource) : (s.staleSend src).port.locked = s.port.locked :=
  by unfold State.staleSend; (repeat' split) <;> simp
@[simp] theorem State.staleSend_port_digest (s : State) (src : OfferSource) : (s.staleSend src).port.digest = s.port.digest :=
  by unfold State.staleSend; (repeat' split) <;> simp
@[simp] theorem State.staleSend_port_masks (s : State) (src : OfferSource) : (s.staleSend src).port.masks = s.port.masks :=
  by unfold State.staleSend; (repeat' split) <;> simp
@[simp] theorem State.staleSend_port_notice (s : State) (src : OfferSource) : (s.staleSend src).port.notice = s.port.notice :=
  by unfold State.staleSend; (repeat' split) <;> simp
@[simp] theorem State.staleSend_port_sdo (s : State) (src : OfferSource) : (s.staleSend src).port.sdo = s.port.sdo := by unfold State.staleSend; (repeat' split) <;> simp
@[simp] theorem State.staleSend_port_capture (s : State) (src : OfferSource) : (s.staleSend src).port.capture = s.port.capture :=
  by unfold State.staleSend; (repeat' split) <;> simp
@[simp] theorem State.staleSend_port_selected (s : State) (src : OfferSource) : (s.staleSend src).port.selected = s.port.selected :=
  by unfold State.staleSend; (repeat' split) <;> simp
@[simp] theorem State.staleSend_ctl_number (s : State) (src : OfferSource) : (s.staleSend src).ctl.number = s.ctl.number :=
  by unfold State.staleSend; (repeat' split) <;> simp
@[simp] theorem State.staleSend_ctl_nonceDraws (s : State) (src : OfferSource) : (s.staleSend src).ctl.nonceDraws = s.ctl.nonceDraws :=
  by unfold State.staleSend; (repeat' split) <;> simp
@[simp] theorem State.staleSend_ctl_joinWait (s : State) (src : OfferSource) : (s.staleSend src).ctl.joinWait = s.ctl.joinWait :=
  by unfold State.staleSend; (repeat' split) <;> simp
@[simp] theorem State.staleSend_ctl_heardState (s : State) (src : OfferSource) : (s.staleSend src).ctl.heardState = s.ctl.heardState :=
  by unfold State.staleSend; (repeat' split) <;> simp
@[simp] theorem State.staleSend_ctl_rejectCount (s : State) (src : OfferSource) : (s.staleSend src).ctl.rejectCount = s.ctl.rejectCount :=
  by unfold State.staleSend; (repeat' split) <;> simp
@[simp] theorem State.staleSend_ctl_cleanCount (s : State) (src : OfferSource) : (s.staleSend src).ctl.cleanCount = s.ctl.cleanCount :=
  by unfold State.staleSend; (repeat' split) <;> simp
@[simp] theorem State.staleSend_cont_turnUsed (s : State) (src : OfferSource) : (s.staleSend src).cont.turnUsed = s.cont.turnUsed :=
  by unfold State.staleSend; (repeat' split) <;> simp
@[simp] theorem State.staleSend_cont_hold (s : State) (src : OfferSource) : (s.staleSend src).cont.hold = s.cont.hold :=
  by unfold State.staleSend; (repeat' split) <;> simp
@[simp] theorem State.staleSend_cont_silent (s : State) (src : OfferSource) : (s.staleSend src).cont.silent = s.cont.silent :=
  by unfold State.staleSend; (repeat' split) <;> simp
@[simp] theorem State.staleSend_replica_table (s : State) (src : OfferSource) : (s.staleSend src).replica.table = s.replica.table :=
  by unfold State.staleSend; (repeat' split) <;> simp
@[simp] theorem State.staleSend_replica_poolInUse (s : State) (src : OfferSource) : (s.staleSend src).replica.poolInUse = s.replica.poolInUse :=
  by unfold State.staleSend; (repeat' split) <;> simp
@[simp] theorem State.staleSend_replica_roster (s : State) (src : OfferSource) : (s.staleSend src).replica.roster = s.replica.roster :=
  by unfold State.staleSend; (repeat' split) <;> simp
@[simp] theorem State.staleSend_replica_sequence (s : State) (src : OfferSource) : (s.staleSend src).replica.sequence = s.replica.sequence :=
  by unfold State.staleSend; (repeat' split) <;> simp
@[simp] theorem State.staleSend_sync_shadow (s : State) (src : OfferSource) : (s.staleSend src).sync.shadow = s.sync.shadow :=
  by unfold State.staleSend; (repeat' split) <;> simp
@[simp] theorem State.staleSend_sync_retry (s : State) (src : OfferSource) : (s.staleSend src).sync.retry = s.sync.retry :=
  by unfold State.staleSend; (repeat' split) <;> simp

/-! `State.idleTo` -/

@[simp] theorem State.idleTo_port (s : State) (n : Nat) : (s.idleTo n).port = s.port := rfl
@[simp] theorem State.idleTo_ctl (s : State) (n : Nat) : (s.idleTo n).ctl = s.ctl := rfl
@[simp] theorem State.idleTo_replica (s : State) (n : Nat) : (s.idleTo n).replica = s.replica := rfl
@[simp] theorem State.idleTo_lease (s : State) (n : Nat) : (s.idleTo n).lease = s.lease := rfl
@[simp] theorem State.idleTo_sync (s : State) (n : Nat) : (s.idleTo n).sync = s.sync := rfl
@[simp] theorem State.idleTo_req (s : State) (n : Nat) : (s.idleTo n).req = s.req := rfl
@[simp] theorem State.idleTo_pending (s : State) (n : Nat) : (s.idleTo n).pending = s.pending := rfl
@[simp] theorem State.idleTo_line_checkAcc (s : State) (n : Nat) : (s.idleTo n).line.checkAcc = s.line.checkAcc := rfl
@[simp] theorem State.idleTo_line_answer (s : State) (n : Nat) : (s.idleTo n).line.answer = s.line.answer := rfl
@[simp] theorem State.idleTo_line_overrun (s : State) (n : Nat) : (s.idleTo n).line.overrun = s.line.overrun := rfl
@[simp] theorem State.idleTo_line_dominantLeft (s : State) (n : Nat) : (s.idleTo n).line.dominantLeft = s.line.dominantLeft := rfl
@[simp] theorem State.idleTo_cont_sendList (s : State) (n : Nat) : (s.idleTo n).cont.sendList = s.cont.sendList := rfl
@[simp] theorem State.idleTo_cont_joinPending (s : State) (n : Nat) : (s.idleTo n).cont.joinPending = s.cont.joinPending := rfl
@[simp] theorem State.idleTo_cont_leavePending (s : State) (n : Nat) : (s.idleTo n).cont.leavePending = s.cont.leavePending := rfl
@[simp] theorem State.idleTo_cont_syncReqPending (s : State) (n : Nat) : (s.idleTo n).cont.syncReqPending = s.cont.syncReqPending := rfl
@[simp] theorem State.idleTo_cont_heartbeatDue (s : State) (n : Nat) : (s.idleTo n).cont.heartbeatDue = s.cont.heartbeatDue := rfl
@[simp] theorem State.idleTo_cont_trainIntent (s : State) (n : Nat) : (s.idleTo n).cont.trainIntent = s.cont.trainIntent := rfl
@[simp] theorem State.idleTo_cont_attempts (s : State) (n : Nat) : (s.idleTo n).cont.attempts = s.cont.attempts := rfl
@[simp] theorem State.idleTo_cont_hold (s : State) (n : Nat) : (s.idleTo n).cont.hold = s.cont.hold := rfl
@[simp] theorem State.idleTo_cont_silent (s : State) (n : Nat) : (s.idleTo n).cont.silent = s.cont.silent := rfl
@[simp] theorem State.idleTo_cont_offer (s : State) (n : Nat) : (s.idleTo n).cont.offer = s.cont.offer := rfl

/-! `State.beginOffer` -/

@[simp] theorem State.beginOffer_port (s : State) (src : OfferSource) (f : TxFrame) : (s.beginOffer src f).port = s.port := by unfold State.beginOffer; split <;> rfl
@[simp] theorem State.beginOffer_replica (s : State) (src : OfferSource) (f : TxFrame) : (s.beginOffer src f).replica = s.replica :=
  by unfold State.beginOffer; split <;> rfl
@[simp] theorem State.beginOffer_lease (s : State) (src : OfferSource) (f : TxFrame) : (s.beginOffer src f).lease = s.lease := by unfold State.beginOffer; split <;> rfl
@[simp] theorem State.beginOffer_sync (s : State) (src : OfferSource) (f : TxFrame) : (s.beginOffer src f).sync = s.sync := by unfold State.beginOffer; split <;> rfl
@[simp] theorem State.beginOffer_pending (s : State) (src : OfferSource) (f : TxFrame) : (s.beginOffer src f).pending = s.pending :=
  by unfold State.beginOffer; split <;> rfl
@[simp] theorem State.beginOffer_ctl_number (s : State) (src : OfferSource) (f : TxFrame) : (s.beginOffer src f).ctl.number = s.ctl.number :=
  by unfold State.beginOffer; split <;> rfl
@[simp] theorem State.beginOffer_ctl_state (s : State) (src : OfferSource) (f : TxFrame) : (s.beginOffer src f).ctl.state = s.ctl.state :=
  by unfold State.beginOffer; split <;> rfl
@[simp] theorem State.beginOffer_ctl_joinWait (s : State) (src : OfferSource) (f : TxFrame) : (s.beginOffer src f).ctl.joinWait = s.ctl.joinWait :=
  by unfold State.beginOffer; split <;> rfl
@[simp] theorem State.beginOffer_ctl_heardState (s : State) (src : OfferSource) (f : TxFrame) : (s.beginOffer src f).ctl.heardState = s.ctl.heardState :=
  by unfold State.beginOffer; split <;> rfl
@[simp] theorem State.beginOffer_ctl_rejectCount (s : State) (src : OfferSource) (f : TxFrame) : (s.beginOffer src f).ctl.rejectCount = s.ctl.rejectCount :=
  by unfold State.beginOffer; split <;> rfl
@[simp] theorem State.beginOffer_ctl_cleanCount (s : State) (src : OfferSource) (f : TxFrame) : (s.beginOffer src f).ctl.cleanCount = s.ctl.cleanCount :=
  by unfold State.beginOffer; split <;> rfl
@[simp] theorem State.beginOffer_cont_sendList (s : State) (src : OfferSource) (f : TxFrame) : (s.beginOffer src f).cont.sendList = s.cont.sendList :=
  by unfold State.beginOffer; split <;> rfl
@[simp] theorem State.beginOffer_cont_joinPending (s : State) (src : OfferSource) (f : TxFrame) : (s.beginOffer src f).cont.joinPending = s.cont.joinPending :=
  by unfold State.beginOffer; split <;> rfl
@[simp] theorem State.beginOffer_cont_leavePending (s : State) (src : OfferSource) (f : TxFrame) : (s.beginOffer src f).cont.leavePending = s.cont.leavePending :=
  by unfold State.beginOffer; split <;> rfl
@[simp] theorem State.beginOffer_cont_syncReqPending (s : State) (src : OfferSource) (f : TxFrame) : (s.beginOffer src f).cont.syncReqPending = s.cont.syncReqPending :=
  by unfold State.beginOffer; split <;> rfl
@[simp] theorem State.beginOffer_cont_heartbeatDue (s : State) (src : OfferSource) (f : TxFrame) : (s.beginOffer src f).cont.heartbeatDue = s.cont.heartbeatDue :=
  by unfold State.beginOffer; split <;> rfl
@[simp] theorem State.beginOffer_cont_trainIntent (s : State) (src : OfferSource) (f : TxFrame) : (s.beginOffer src f).cont.trainIntent = s.cont.trainIntent :=
  by unfold State.beginOffer; split <;> rfl
@[simp] theorem State.beginOffer_cont_turnUsed (s : State) (src : OfferSource) (f : TxFrame) : (s.beginOffer src f).cont.turnUsed = s.cont.turnUsed :=
  by unfold State.beginOffer; split <;> rfl
@[simp] theorem State.beginOffer_cont_hold (s : State) (src : OfferSource) (f : TxFrame) : (s.beginOffer src f).cont.hold = s.cont.hold :=
  by unfold State.beginOffer; split <;> rfl
@[simp] theorem State.beginOffer_cont_silent (s : State) (src : OfferSource) (f : TxFrame) : (s.beginOffer src f).cont.silent = s.cont.silent :=
  by unfold State.beginOffer; split <;> rfl
@[simp] theorem State.beginOffer_req_queue (s : State) (src : OfferSource) (f : TxFrame) : (s.beginOffer src f).req.queue = s.req.queue :=
  by unfold State.beginOffer; split <;> rfl

/-! `State.abandonSource` -/

@[simp] theorem State.abandonSource_port (s : State) (src : OfferSource) : (s.abandonSource src).port = s.port :=
  by unfold State.abandonSource; repeat' (first | rfl | split)
@[simp] theorem State.abandonSource_line (s : State) (src : OfferSource) : (s.abandonSource src).line = s.line :=
  by unfold State.abandonSource; repeat' (first | rfl | split)
@[simp] theorem State.abandonSource_pending (s : State) (src : OfferSource) : (s.abandonSource src).pending = s.pending :=
  by unfold State.abandonSource; repeat' (first | rfl | split)
@[simp] theorem State.abandonSource_ctl_number (s : State) (src : OfferSource) : (s.abandonSource src).ctl.number = s.ctl.number :=
  by unfold State.abandonSource; repeat' (first | rfl | split)
@[simp] theorem State.abandonSource_ctl_nonceDraws (s : State) (src : OfferSource) : (s.abandonSource src).ctl.nonceDraws = s.ctl.nonceDraws :=
  by unfold State.abandonSource; repeat' (first | rfl | split)
@[simp] theorem State.abandonSource_cont_turnUsed (s : State) (src : OfferSource) : (s.abandonSource src).cont.turnUsed = s.cont.turnUsed :=
  by unfold State.abandonSource; repeat' (first | rfl | split)
@[simp] theorem State.abandonSource_cont_hold (s : State) (src : OfferSource) : (s.abandonSource src).cont.hold = s.cont.hold :=
  by unfold State.abandonSource; repeat' (first | rfl | split)

/-! `State.accept` -/

@[simp] theorem State.accept_port (s : State) (r : RequestRecord) (k : RequestKind) : (s.accept r k).port = s.port := rfl
@[simp] theorem State.accept_ctl (s : State) (r : RequestRecord) (k : RequestKind) : (s.accept r k).ctl = s.ctl := rfl
@[simp] theorem State.accept_line (s : State) (r : RequestRecord) (k : RequestKind) : (s.accept r k).line = s.line := rfl
@[simp] theorem State.accept_replica (s : State) (r : RequestRecord) (k : RequestKind) : (s.accept r k).replica = s.replica := rfl
@[simp] theorem State.accept_lease (s : State) (r : RequestRecord) (k : RequestKind) : (s.accept r k).lease = s.lease := rfl
@[simp] theorem State.accept_sync (s : State) (r : RequestRecord) (k : RequestKind) : (s.accept r k).sync = s.sync := rfl
@[simp] theorem State.accept_pending (s : State) (r : RequestRecord) (k : RequestKind) : (s.accept r k).pending = s.pending := rfl
@[simp] theorem State.accept_cont_joinPending (s : State) (r : RequestRecord) (k : RequestKind) : (s.accept r k).cont.joinPending = s.cont.joinPending := rfl
@[simp] theorem State.accept_cont_leavePending (s : State) (r : RequestRecord) (k : RequestKind) : (s.accept r k).cont.leavePending = s.cont.leavePending := rfl
@[simp] theorem State.accept_cont_syncReqPending (s : State) (r : RequestRecord) (k : RequestKind) : (s.accept r k).cont.syncReqPending = s.cont.syncReqPending := rfl
@[simp] theorem State.accept_cont_heartbeatDue (s : State) (r : RequestRecord) (k : RequestKind) : (s.accept r k).cont.heartbeatDue = s.cont.heartbeatDue := rfl
@[simp] theorem State.accept_cont_trainIntent (s : State) (r : RequestRecord) (k : RequestKind) : (s.accept r k).cont.trainIntent = s.cont.trainIntent := rfl
@[simp] theorem State.accept_cont_attempts (s : State) (r : RequestRecord) (k : RequestKind) : (s.accept r k).cont.attempts = s.cont.attempts := rfl
@[simp] theorem State.accept_cont_turnUsed (s : State) (r : RequestRecord) (k : RequestKind) : (s.accept r k).cont.turnUsed = s.cont.turnUsed := rfl
@[simp] theorem State.accept_cont_hold (s : State) (r : RequestRecord) (k : RequestKind) : (s.accept r k).cont.hold = s.cont.hold := rfl
@[simp] theorem State.accept_cont_silent (s : State) (r : RequestRecord) (k : RequestKind) : (s.accept r k).cont.silent = s.cont.silent := rfl
@[simp] theorem State.accept_cont_offer (s : State) (r : RequestRecord) (k : RequestKind) : (s.accept r k).cont.offer = s.cont.offer := rfl
@[simp] theorem State.accept_req_queue (s : State) (r : RequestRecord) (k : RequestKind) : (s.accept r k).req.queue = s.req.queue := rfl

/-! `State.enterLeaving` -/

@[simp] theorem State.enterLeaving_port (s : State) : s.enterLeaving.port = s.port := rfl
@[simp] theorem State.enterLeaving_line (s : State) : s.enterLeaving.line = s.line := rfl
@[simp] theorem State.enterLeaving_replica (s : State) : s.enterLeaving.replica = s.replica := rfl
@[simp] theorem State.enterLeaving_pending (s : State) : s.enterLeaving.pending = s.pending := rfl
@[simp] theorem State.enterLeaving_ctl_number (s : State) : s.enterLeaving.ctl.number = s.ctl.number := rfl
@[simp] theorem State.enterLeaving_ctl_nonceDraws (s : State) : s.enterLeaving.ctl.nonceDraws = s.ctl.nonceDraws := rfl
@[simp] theorem State.enterLeaving_ctl_joinWait (s : State) : s.enterLeaving.ctl.joinWait = s.ctl.joinWait := rfl
@[simp] theorem State.enterLeaving_ctl_heardState (s : State) : s.enterLeaving.ctl.heardState = s.ctl.heardState := rfl
@[simp] theorem State.enterLeaving_ctl_rejectCount (s : State) : s.enterLeaving.ctl.rejectCount = s.ctl.rejectCount := rfl
@[simp] theorem State.enterLeaving_ctl_cleanCount (s : State) : s.enterLeaving.ctl.cleanCount = s.ctl.cleanCount := rfl
@[simp] theorem State.enterLeaving_cont_joinPending (s : State) : s.enterLeaving.cont.joinPending = s.cont.joinPending := rfl
@[simp] theorem State.enterLeaving_cont_syncReqPending (s : State) : s.enterLeaving.cont.syncReqPending = s.cont.syncReqPending := rfl
@[simp] theorem State.enterLeaving_cont_turnUsed (s : State) : s.enterLeaving.cont.turnUsed = s.cont.turnUsed := rfl
@[simp] theorem State.enterLeaving_cont_hold (s : State) : s.enterLeaving.cont.hold = s.cont.hold := rfl
@[simp] theorem State.enterLeaving_cont_silent (s : State) : s.enterLeaving.cont.silent = s.cont.silent := rfl
@[simp] theorem State.enterLeaving_sync_shadow (s : State) : s.enterLeaving.sync.shadow = s.sync.shadow := rfl
@[simp] theorem State.enterLeaving_sync_retry (s : State) : s.enterLeaving.sync.retry = s.sync.retry := rfl

/-! `State.restarted` -/

@[simp] theorem State.restarted_pending (s : State) : s.restarted.pending = s.pending := rfl
@[simp] theorem State.restarted_port_config (s : State) : s.restarted.port.config = s.port.config := rfl
@[simp] theorem State.restarted_port_locked (s : State) : s.restarted.port.locked = s.port.locked := rfl
@[simp] theorem State.restarted_port_digest (s : State) : s.restarted.port.digest = s.port.digest := rfl
@[simp] theorem State.restarted_port_masks (s : State) : s.restarted.port.masks = s.port.masks := rfl
@[simp] theorem State.restarted_port_notice (s : State) : s.restarted.port.notice = s.port.notice := rfl
@[simp] theorem State.restarted_port_sdo (s : State) : s.restarted.port.sdo = s.port.sdo := rfl
@[simp] theorem State.restarted_port_capture (s : State) : s.restarted.port.capture = s.port.capture := rfl
@[simp] theorem State.restarted_port_selected (s : State) : s.restarted.port.selected = s.port.selected := rfl
@[simp] theorem State.restarted_ctl_number (s : State) : s.restarted.ctl.number = s.ctl.number := rfl
@[simp] theorem State.restarted_ctl_nonceDraws (s : State) : s.restarted.ctl.nonceDraws = s.ctl.nonceDraws := rfl

/-! `State.readJoin` -/

@[simp] theorem State.readJoin_line (s : State) (a : Answers) : (s.readJoin a).line = s.line := by unfold State.readJoin; repeat' (first | rfl | split)
@[simp] theorem State.readJoin_pending (s : State) (a : Answers) : (s.readJoin a).pending = s.pending := by unfold State.readJoin; repeat' (first | rfl | split)
@[simp] theorem State.readJoin_port_config (s : State) (a : Answers) : (s.readJoin a).port.config = s.port.config :=
  by unfold State.readJoin; repeat' (first | rfl | split)
@[simp] theorem State.readJoin_port_locked (s : State) (a : Answers) : (s.readJoin a).port.locked = s.port.locked :=
  by unfold State.readJoin; repeat' (first | rfl | split)
@[simp] theorem State.readJoin_port_digest (s : State) (a : Answers) : (s.readJoin a).port.digest = s.port.digest :=
  by unfold State.readJoin; repeat' (first | rfl | split)
@[simp] theorem State.readJoin_port_masks (s : State) (a : Answers) : (s.readJoin a).port.masks = s.port.masks := by unfold State.readJoin; repeat' (first | rfl | split)
@[simp] theorem State.readJoin_port_notice (s : State) (a : Answers) : (s.readJoin a).port.notice = s.port.notice :=
  by unfold State.readJoin; repeat' (first | rfl | split)
@[simp] theorem State.readJoin_port_sdo (s : State) (a : Answers) : (s.readJoin a).port.sdo = s.port.sdo := by unfold State.readJoin; repeat' (first | rfl | split)
@[simp] theorem State.readJoin_port_capture (s : State) (a : Answers) : (s.readJoin a).port.capture = s.port.capture :=
  by unfold State.readJoin; repeat' (first | rfl | split)
@[simp] theorem State.readJoin_port_selected (s : State) (a : Answers) : (s.readJoin a).port.selected = s.port.selected :=
  by unfold State.readJoin; repeat' (first | rfl | split)
@[simp] theorem State.readJoin_ctl_number (s : State) (a : Answers) : (s.readJoin a).ctl.number = s.ctl.number := by unfold State.readJoin; repeat' (first | rfl | split)
@[simp] theorem State.readJoin_ctl_nonceDraws (s : State) (a : Answers) : (s.readJoin a).ctl.nonceDraws = s.ctl.nonceDraws :=
  by unfold State.readJoin; repeat' (first | rfl | split)
@[simp] theorem State.readJoin_cont_turnUsed (s : State) (a : Answers) : (s.readJoin a).cont.turnUsed = s.cont.turnUsed :=
  by unfold State.readJoin; repeat' (first | rfl | split)
@[simp] theorem State.readJoin_cont_hold (s : State) (a : Answers) : (s.readJoin a).cont.hold = s.cont.hold := by unfold State.readJoin; repeat' (first | rfl | split)
@[simp] theorem State.readJoin_cont_silent (s : State) (a : Answers) : (s.readJoin a).cont.silent = s.cont.silent :=
  by unfold State.readJoin; repeat' (first | rfl | split)

/-! `State.restartHeartbeatTimer` -/

@[simp] theorem State.restartHeartbeatTimer_port (s : State) : s.restartHeartbeatTimer.port = s.port := by unfold State.restartHeartbeatTimer; split <;> rfl
@[simp] theorem State.restartHeartbeatTimer_ctl (s : State) : s.restartHeartbeatTimer.ctl = s.ctl := by unfold State.restartHeartbeatTimer; split <;> rfl
@[simp] theorem State.restartHeartbeatTimer_line (s : State) : s.restartHeartbeatTimer.line = s.line := by unfold State.restartHeartbeatTimer; split <;> rfl
@[simp] theorem State.restartHeartbeatTimer_cont (s : State) : s.restartHeartbeatTimer.cont = s.cont := by unfold State.restartHeartbeatTimer; split <;> rfl
@[simp] theorem State.restartHeartbeatTimer_replica (s : State) : s.restartHeartbeatTimer.replica = s.replica := by unfold State.restartHeartbeatTimer; split <;> rfl
@[simp] theorem State.restartHeartbeatTimer_sync (s : State) : s.restartHeartbeatTimer.sync = s.sync := by unfold State.restartHeartbeatTimer; split <;> rfl
@[simp] theorem State.restartHeartbeatTimer_req (s : State) : s.restartHeartbeatTimer.req = s.req := by unfold State.restartHeartbeatTimer; split <;> rfl
@[simp] theorem State.restartHeartbeatTimer_pending (s : State) : s.restartHeartbeatTimer.pending = s.pending := by unfold State.restartHeartbeatTimer; split <;> rfl
@[simp] theorem State.restartHeartbeatTimer_lease_remaining (s : State) : s.restartHeartbeatTimer.lease.remaining = s.lease.remaining :=
  by unfold State.restartHeartbeatTimer; split <;> rfl
@[simp] theorem State.restartHeartbeatTimer_lease_reapSet (s : State) : s.restartHeartbeatTimer.lease.reapSet = s.lease.reapSet :=
  by unfold State.restartHeartbeatTimer; split <;> rfl

/-! `State.setTrainIntent` -/

@[simp] theorem State.setTrainIntent_port (s : State) : s.setTrainIntent.port = s.port := by unfold State.setTrainIntent; split <;> rfl
@[simp] theorem State.setTrainIntent_ctl (s : State) : s.setTrainIntent.ctl = s.ctl := by unfold State.setTrainIntent; split <;> rfl
@[simp] theorem State.setTrainIntent_line (s : State) : s.setTrainIntent.line = s.line := by unfold State.setTrainIntent; split <;> rfl
@[simp] theorem State.setTrainIntent_replica (s : State) : s.setTrainIntent.replica = s.replica := by unfold State.setTrainIntent; split <;> rfl
@[simp] theorem State.setTrainIntent_lease (s : State) : s.setTrainIntent.lease = s.lease := by unfold State.setTrainIntent; split <;> rfl
@[simp] theorem State.setTrainIntent_req (s : State) : s.setTrainIntent.req = s.req := by unfold State.setTrainIntent; split <;> rfl
@[simp] theorem State.setTrainIntent_pending (s : State) : s.setTrainIntent.pending = s.pending := by unfold State.setTrainIntent; split <;> rfl
@[simp] theorem State.setTrainIntent_cont_sendList (s : State) : s.setTrainIntent.cont.sendList = s.cont.sendList := by unfold State.setTrainIntent; split <;> rfl
@[simp] theorem State.setTrainIntent_cont_joinPending (s : State) : s.setTrainIntent.cont.joinPending = s.cont.joinPending :=
  by unfold State.setTrainIntent; split <;> rfl
@[simp] theorem State.setTrainIntent_cont_leavePending (s : State) : s.setTrainIntent.cont.leavePending = s.cont.leavePending :=
  by unfold State.setTrainIntent; split <;> rfl
@[simp] theorem State.setTrainIntent_cont_syncReqPending (s : State) : s.setTrainIntent.cont.syncReqPending = s.cont.syncReqPending :=
  by unfold State.setTrainIntent; split <;> rfl
@[simp] theorem State.setTrainIntent_cont_heartbeatDue (s : State) : s.setTrainIntent.cont.heartbeatDue = s.cont.heartbeatDue :=
  by unfold State.setTrainIntent; split <;> rfl
@[simp] theorem State.setTrainIntent_cont_turnUsed (s : State) : s.setTrainIntent.cont.turnUsed = s.cont.turnUsed := by unfold State.setTrainIntent; split <;> rfl
@[simp] theorem State.setTrainIntent_cont_hold (s : State) : s.setTrainIntent.cont.hold = s.cont.hold := by unfold State.setTrainIntent; split <;> rfl
@[simp] theorem State.setTrainIntent_cont_silent (s : State) : s.setTrainIntent.cont.silent = s.cont.silent := by unfold State.setTrainIntent; split <;> rfl
@[simp] theorem State.setTrainIntent_cont_offer (s : State) : s.setTrainIntent.cont.offer = s.cont.offer := by unfold State.setTrainIntent; split <;> rfl
@[simp] theorem State.setTrainIntent_sync_cursor (s : State) : s.setTrainIntent.sync.cursor = s.sync.cursor := by unfold State.setTrainIntent; split <;> rfl
@[simp] theorem State.setTrainIntent_sync_sendCheck (s : State) : s.setTrainIntent.sync.sendCheck = s.sync.sendCheck := by unfold State.setTrainIntent; split <;> rfl
@[simp] theorem State.setTrainIntent_sync_shadow (s : State) : s.setTrainIntent.sync.shadow = s.sync.shadow := by unfold State.setTrainIntent; split <;> rfl
@[simp] theorem State.setTrainIntent_sync_retry (s : State) : s.setTrainIntent.sync.retry = s.sync.retry := by unfold State.setTrainIntent; split <;> rfl

/-! `State.startRetry` -/

@[simp] theorem State.startRetry_port (s : State) : s.startRetry.port = s.port := rfl
@[simp] theorem State.startRetry_ctl (s : State) : s.startRetry.ctl = s.ctl := rfl
@[simp] theorem State.startRetry_line (s : State) : s.startRetry.line = s.line := rfl
@[simp] theorem State.startRetry_cont (s : State) : s.startRetry.cont = s.cont := rfl
@[simp] theorem State.startRetry_replica (s : State) : s.startRetry.replica = s.replica := rfl
@[simp] theorem State.startRetry_lease (s : State) : s.startRetry.lease = s.lease := rfl
@[simp] theorem State.startRetry_req (s : State) : s.startRetry.req = s.req := rfl
@[simp] theorem State.startRetry_pending (s : State) : s.startRetry.pending = s.pending := rfl
@[simp] theorem State.startRetry_sync_phase (s : State) : s.startRetry.sync.phase = s.sync.phase := rfl
@[simp] theorem State.startRetry_sync_cursor (s : State) : s.startRetry.sync.cursor = s.sync.cursor := rfl
@[simp] theorem State.startRetry_sync_sendCheck (s : State) : s.startRetry.sync.sendCheck = s.sync.sendCheck := rfl
@[simp] theorem State.startRetry_sync_shadow (s : State) : s.startRetry.sync.shadow = s.sync.shadow := rfl

/-! `State.beginServing` -/

@[simp] theorem State.beginServing_port (s : State) (body : List Byte) : (s.beginServing body).port = s.port := by unfold State.beginServing; split <;> rfl
@[simp] theorem State.beginServing_ctl (s : State) (body : List Byte) : (s.beginServing body).ctl = s.ctl := by unfold State.beginServing; split <;> rfl
@[simp] theorem State.beginServing_line (s : State) (body : List Byte) : (s.beginServing body).line = s.line := by unfold State.beginServing; split <;> rfl
@[simp] theorem State.beginServing_replica (s : State) (body : List Byte) : (s.beginServing body).replica = s.replica := by unfold State.beginServing; split <;> rfl
@[simp] theorem State.beginServing_lease (s : State) (body : List Byte) : (s.beginServing body).lease = s.lease := by unfold State.beginServing; split <;> rfl
@[simp] theorem State.beginServing_req (s : State) (body : List Byte) : (s.beginServing body).req = s.req := by unfold State.beginServing; split <;> rfl
@[simp] theorem State.beginServing_pending (s : State) (body : List Byte) : (s.beginServing body).pending = s.pending := by unfold State.beginServing; split <;> rfl
@[simp] theorem State.beginServing_cont_sendList (s : State) (body : List Byte) : (s.beginServing body).cont.sendList = s.cont.sendList :=
  by unfold State.beginServing; split <;> rfl
@[simp] theorem State.beginServing_cont_joinPending (s : State) (body : List Byte) : (s.beginServing body).cont.joinPending = s.cont.joinPending :=
  by unfold State.beginServing; split <;> rfl
@[simp] theorem State.beginServing_cont_leavePending (s : State) (body : List Byte) : (s.beginServing body).cont.leavePending = s.cont.leavePending :=
  by unfold State.beginServing; split <;> rfl
@[simp] theorem State.beginServing_cont_syncReqPending (s : State) (body : List Byte) : (s.beginServing body).cont.syncReqPending = s.cont.syncReqPending :=
  by unfold State.beginServing; split <;> rfl
@[simp] theorem State.beginServing_cont_heartbeatDue (s : State) (body : List Byte) : (s.beginServing body).cont.heartbeatDue = s.cont.heartbeatDue :=
  by unfold State.beginServing; split <;> rfl
@[simp] theorem State.beginServing_cont_attempts (s : State) (body : List Byte) : (s.beginServing body).cont.attempts = s.cont.attempts :=
  by unfold State.beginServing; split <;> rfl
@[simp] theorem State.beginServing_cont_turnUsed (s : State) (body : List Byte) : (s.beginServing body).cont.turnUsed = s.cont.turnUsed :=
  by unfold State.beginServing; split <;> rfl
@[simp] theorem State.beginServing_cont_hold (s : State) (body : List Byte) : (s.beginServing body).cont.hold = s.cont.hold := by unfold State.beginServing; split <;> rfl
@[simp] theorem State.beginServing_cont_silent (s : State) (body : List Byte) : (s.beginServing body).cont.silent = s.cont.silent :=
  by unfold State.beginServing; split <;> rfl
@[simp] theorem State.beginServing_cont_offer (s : State) (body : List Byte) : (s.beginServing body).cont.offer = s.cont.offer :=
  by unfold State.beginServing; split <;> rfl
@[simp] theorem State.beginServing_sync_shadow (s : State) (body : List Byte) : (s.beginServing body).sync.shadow = s.sync.shadow :=
  by unfold State.beginServing; split <;> rfl
@[simp] theorem State.beginServing_sync_retry (s : State) (body : List Byte) : (s.beginServing body).sync.retry = s.sync.retry :=
  by unfold State.beginServing; split <;> rfl

/-! `State.standDown` -/

@[simp] theorem State.standDown_port (s : State) : s.standDown.port = s.port := rfl
@[simp] theorem State.standDown_ctl (s : State) : s.standDown.ctl = s.ctl := rfl
@[simp] theorem State.standDown_line (s : State) : s.standDown.line = s.line := rfl
@[simp] theorem State.standDown_replica (s : State) : s.standDown.replica = s.replica := rfl
@[simp] theorem State.standDown_lease (s : State) : s.standDown.lease = s.lease := rfl
@[simp] theorem State.standDown_req (s : State) : s.standDown.req = s.req := rfl
@[simp] theorem State.standDown_pending (s : State) : s.standDown.pending = s.pending := rfl
@[simp] theorem State.standDown_cont_sendList (s : State) : s.standDown.cont.sendList = s.cont.sendList := rfl
@[simp] theorem State.standDown_cont_joinPending (s : State) : s.standDown.cont.joinPending = s.cont.joinPending := rfl
@[simp] theorem State.standDown_cont_leavePending (s : State) : s.standDown.cont.leavePending = s.cont.leavePending := rfl
@[simp] theorem State.standDown_cont_syncReqPending (s : State) : s.standDown.cont.syncReqPending = s.cont.syncReqPending := rfl
@[simp] theorem State.standDown_cont_heartbeatDue (s : State) : s.standDown.cont.heartbeatDue = s.cont.heartbeatDue := rfl
@[simp] theorem State.standDown_cont_turnUsed (s : State) : s.standDown.cont.turnUsed = s.cont.turnUsed := rfl
@[simp] theorem State.standDown_cont_hold (s : State) : s.standDown.cont.hold = s.cont.hold := rfl
@[simp] theorem State.standDown_cont_silent (s : State) : s.standDown.cont.silent = s.cont.silent := rfl
@[simp] theorem State.standDown_sync_cursor (s : State) : s.standDown.sync.cursor = s.sync.cursor := rfl
@[simp] theorem State.standDown_sync_sendCheck (s : State) : s.standDown.sync.sendCheck = s.sync.sendCheck := rfl
@[simp] theorem State.standDown_sync_shadow (s : State) : s.standDown.sync.shadow = s.sync.shadow := rfl

/-! `State.takeEntries` -/

@[simp] theorem State.takeEntries_port (s : State) (sender : Station) (body : List Byte) : (s.takeEntries sender body).port = s.port :=
  by unfold State.takeEntries; repeat' (first | rfl | split)
@[simp] theorem State.takeEntries_ctl (s : State) (sender : Station) (body : List Byte) : (s.takeEntries sender body).ctl = s.ctl :=
  by unfold State.takeEntries; repeat' (first | rfl | split)
@[simp] theorem State.takeEntries_line (s : State) (sender : Station) (body : List Byte) : (s.takeEntries sender body).line = s.line :=
  by unfold State.takeEntries; repeat' (first | rfl | split)
@[simp] theorem State.takeEntries_replica (s : State) (sender : Station) (body : List Byte) : (s.takeEntries sender body).replica = s.replica :=
  by unfold State.takeEntries; repeat' (first | rfl | split)
@[simp] theorem State.takeEntries_lease (s : State) (sender : Station) (body : List Byte) : (s.takeEntries sender body).lease = s.lease :=
  by unfold State.takeEntries; repeat' (first | rfl | split)
@[simp] theorem State.takeEntries_req (s : State) (sender : Station) (body : List Byte) : (s.takeEntries sender body).req = s.req :=
  by unfold State.takeEntries; repeat' (first | rfl | split)
@[simp] theorem State.takeEntries_pending (s : State) (sender : Station) (body : List Byte) : (s.takeEntries sender body).pending = s.pending :=
  by unfold State.takeEntries; repeat' (first | rfl | split)
@[simp] theorem State.takeEntries_cont_sendList (s : State) (sender : Station) (body : List Byte) : (s.takeEntries sender body).cont.sendList = s.cont.sendList :=
  by unfold State.takeEntries; repeat' (first | rfl | split)
@[simp] theorem State.takeEntries_cont_joinPending (s : State) (sender : Station) (body : List Byte) : (s.takeEntries sender body).cont.joinPending = s.cont.joinPending :=
  by unfold State.takeEntries; repeat' (first | rfl | split)
@[simp] theorem State.takeEntries_cont_leavePending (s : State) (sender : Station) (body : List Byte) : (s.takeEntries sender body).cont.leavePending = s.cont.leavePending :=
  by unfold State.takeEntries; repeat' (first | rfl | split)
@[simp] theorem State.takeEntries_cont_heartbeatDue (s : State) (sender : Station) (body : List Byte) : (s.takeEntries sender body).cont.heartbeatDue = s.cont.heartbeatDue :=
  by unfold State.takeEntries; repeat' (first | rfl | split)
@[simp] theorem State.takeEntries_cont_trainIntent (s : State) (sender : Station) (body : List Byte) : (s.takeEntries sender body).cont.trainIntent = s.cont.trainIntent :=
  by unfold State.takeEntries; repeat' (first | rfl | split)
@[simp] theorem State.takeEntries_cont_attempts (s : State) (sender : Station) (body : List Byte) : (s.takeEntries sender body).cont.attempts = s.cont.attempts :=
  by unfold State.takeEntries; repeat' (first | rfl | split)
@[simp] theorem State.takeEntries_cont_turnUsed (s : State) (sender : Station) (body : List Byte) : (s.takeEntries sender body).cont.turnUsed = s.cont.turnUsed :=
  by unfold State.takeEntries; repeat' (first | rfl | split)
@[simp] theorem State.takeEntries_cont_hold (s : State) (sender : Station) (body : List Byte) : (s.takeEntries sender body).cont.hold = s.cont.hold :=
  by unfold State.takeEntries; repeat' (first | rfl | split)
@[simp] theorem State.takeEntries_cont_silent (s : State) (sender : Station) (body : List Byte) : (s.takeEntries sender body).cont.silent = s.cont.silent :=
  by unfold State.takeEntries; repeat' (first | rfl | split)
@[simp] theorem State.takeEntries_cont_offer (s : State) (sender : Station) (body : List Byte) : (s.takeEntries sender body).cont.offer = s.cont.offer :=
  by unfold State.takeEntries; repeat' (first | rfl | split)
@[simp] theorem State.takeEntries_sync_phase (s : State) (sender : Station) (body : List Byte) : (s.takeEntries sender body).sync.phase = s.sync.phase :=
  by unfold State.takeEntries; repeat' (first | rfl | split)
@[simp] theorem State.takeEntries_sync_cursor (s : State) (sender : Station) (body : List Byte) : (s.takeEntries sender body).sync.cursor = s.sync.cursor :=
  by unfold State.takeEntries; repeat' (first | rfl | split)
@[simp] theorem State.takeEntries_sync_sendCheck (s : State) (sender : Station) (body : List Byte) : (s.takeEntries sender body).sync.sendCheck = s.sync.sendCheck :=
  by unfold State.takeEntries; repeat' (first | rfl | split)
@[simp] theorem State.takeEntries_sync_retry (s : State) (sender : Station) (body : List Byte) : (s.takeEntries sender body).sync.retry = s.sync.retry :=
  by unfold State.takeEntries; repeat' (first | rfl | split)

/-! `State.advanceCursor` -/

@[simp] theorem State.advanceCursor_port (s : State) (body : List Byte) : (s.advanceCursor body).port = s.port := by unfold State.advanceCursor; split <;> rfl
@[simp] theorem State.advanceCursor_ctl (s : State) (body : List Byte) : (s.advanceCursor body).ctl = s.ctl := by unfold State.advanceCursor; split <;> rfl
@[simp] theorem State.advanceCursor_line (s : State) (body : List Byte) : (s.advanceCursor body).line = s.line := by unfold State.advanceCursor; split <;> rfl
@[simp] theorem State.advanceCursor_cont (s : State) (body : List Byte) : (s.advanceCursor body).cont = s.cont := by unfold State.advanceCursor; split <;> rfl
@[simp] theorem State.advanceCursor_replica (s : State) (body : List Byte) : (s.advanceCursor body).replica = s.replica := by unfold State.advanceCursor; split <;> rfl
@[simp] theorem State.advanceCursor_lease (s : State) (body : List Byte) : (s.advanceCursor body).lease = s.lease := by unfold State.advanceCursor; split <;> rfl
@[simp] theorem State.advanceCursor_req (s : State) (body : List Byte) : (s.advanceCursor body).req = s.req := by unfold State.advanceCursor; split <;> rfl
@[simp] theorem State.advanceCursor_pending (s : State) (body : List Byte) : (s.advanceCursor body).pending = s.pending := by unfold State.advanceCursor; split <;> rfl
@[simp] theorem State.advanceCursor_sync_shadow (s : State) (body : List Byte) : (s.advanceCursor body).sync.shadow = s.sync.shadow :=
  by unfold State.advanceCursor; split <;> rfl
@[simp] theorem State.advanceCursor_sync_retry (s : State) (body : List Byte) : (s.advanceCursor body).sync.retry = s.sync.retry :=
  by unfold State.advanceCursor; split <;> rfl

/-! `State.install` -/

@[simp] theorem State.install_line (s : State) (sh : Shadow) : (s.install sh).line = s.line := rfl
@[simp] theorem State.install_pending (s : State) (sh : Shadow) : (s.install sh).pending = s.pending := rfl
@[simp] theorem State.install_port_config (s : State) (sh : Shadow) : (s.install sh).port.config = s.port.config := rfl
@[simp] theorem State.install_port_locked (s : State) (sh : Shadow) : (s.install sh).port.locked = s.port.locked := rfl
@[simp] theorem State.install_port_digest (s : State) (sh : Shadow) : (s.install sh).port.digest = s.port.digest := rfl
@[simp] theorem State.install_port_masks (s : State) (sh : Shadow) : (s.install sh).port.masks = s.port.masks := rfl
@[simp] theorem State.install_port_notice (s : State) (sh : Shadow) : (s.install sh).port.notice = s.port.notice := rfl
@[simp] theorem State.install_port_sdo (s : State) (sh : Shadow) : (s.install sh).port.sdo = s.port.sdo := rfl
@[simp] theorem State.install_port_capture (s : State) (sh : Shadow) : (s.install sh).port.capture = s.port.capture := rfl
@[simp] theorem State.install_port_selected (s : State) (sh : Shadow) : (s.install sh).port.selected = s.port.selected := rfl
@[simp] theorem State.install_ctl_number (s : State) (sh : Shadow) : (s.install sh).ctl.number = s.ctl.number := rfl
@[simp] theorem State.install_ctl_nonceDraws (s : State) (sh : Shadow) : (s.install sh).ctl.nonceDraws = s.ctl.nonceDraws := rfl
@[simp] theorem State.install_ctl_joinWait (s : State) (sh : Shadow) : (s.install sh).ctl.joinWait = s.ctl.joinWait := rfl
@[simp] theorem State.install_ctl_heardState (s : State) (sh : Shadow) : (s.install sh).ctl.heardState = s.ctl.heardState := rfl
@[simp] theorem State.install_ctl_rejectCount (s : State) (sh : Shadow) : (s.install sh).ctl.rejectCount = s.ctl.rejectCount := rfl
@[simp] theorem State.install_ctl_cleanCount (s : State) (sh : Shadow) : (s.install sh).ctl.cleanCount = s.ctl.cleanCount := rfl
@[simp] theorem State.install_cont_joinPending (s : State) (sh : Shadow) : (s.install sh).cont.joinPending = s.cont.joinPending := rfl
@[simp] theorem State.install_cont_leavePending (s : State) (sh : Shadow) : (s.install sh).cont.leavePending = s.cont.leavePending := rfl
@[simp] theorem State.install_cont_trainIntent (s : State) (sh : Shadow) : (s.install sh).cont.trainIntent = s.cont.trainIntent := rfl
@[simp] theorem State.install_cont_turnUsed (s : State) (sh : Shadow) : (s.install sh).cont.turnUsed = s.cont.turnUsed := rfl
@[simp] theorem State.install_cont_hold (s : State) (sh : Shadow) : (s.install sh).cont.hold = s.cont.hold := rfl
@[simp] theorem State.install_cont_silent (s : State) (sh : Shadow) : (s.install sh).cont.silent = s.cont.silent := rfl
@[simp] theorem State.install_sync_phase (s : State) (sh : Shadow) : (s.install sh).sync.phase = s.sync.phase := rfl
@[simp] theorem State.install_sync_cursor (s : State) (sh : Shadow) : (s.install sh).sync.cursor = s.sync.cursor := rfl
@[simp] theorem State.install_sync_sendCheck (s : State) (sh : Shadow) : (s.install sh).sync.sendCheck = s.sync.sendCheck := rfl

/-! `State.settleShadow` -/

@[simp] theorem State.settleShadow_line (s : State) (sh : Shadow) : (s.settleShadow sh).line = s.line := by unfold State.settleShadow; split <;> rfl
@[simp] theorem State.settleShadow_pending (s : State) (sh : Shadow) : (s.settleShadow sh).pending = s.pending := by unfold State.settleShadow; split <;> rfl
@[simp] theorem State.settleShadow_port_config (s : State) (sh : Shadow) : (s.settleShadow sh).port.config = s.port.config := by unfold State.settleShadow; split <;> rfl
@[simp] theorem State.settleShadow_port_locked (s : State) (sh : Shadow) : (s.settleShadow sh).port.locked = s.port.locked := by unfold State.settleShadow; split <;> rfl
@[simp] theorem State.settleShadow_port_digest (s : State) (sh : Shadow) : (s.settleShadow sh).port.digest = s.port.digest := by unfold State.settleShadow; split <;> rfl
@[simp] theorem State.settleShadow_port_masks (s : State) (sh : Shadow) : (s.settleShadow sh).port.masks = s.port.masks := by unfold State.settleShadow; split <;> rfl
@[simp] theorem State.settleShadow_port_notice (s : State) (sh : Shadow) : (s.settleShadow sh).port.notice = s.port.notice := by unfold State.settleShadow; split <;> rfl
@[simp] theorem State.settleShadow_port_sdo (s : State) (sh : Shadow) : (s.settleShadow sh).port.sdo = s.port.sdo := by unfold State.settleShadow; split <;> rfl
@[simp] theorem State.settleShadow_port_capture (s : State) (sh : Shadow) : (s.settleShadow sh).port.capture = s.port.capture :=
  by unfold State.settleShadow; split <;> rfl
@[simp] theorem State.settleShadow_port_selected (s : State) (sh : Shadow) : (s.settleShadow sh).port.selected = s.port.selected :=
  by unfold State.settleShadow; split <;> rfl
@[simp] theorem State.settleShadow_ctl_number (s : State) (sh : Shadow) : (s.settleShadow sh).ctl.number = s.ctl.number := by unfold State.settleShadow; split <;> rfl
@[simp] theorem State.settleShadow_ctl_nonceDraws (s : State) (sh : Shadow) : (s.settleShadow sh).ctl.nonceDraws = s.ctl.nonceDraws :=
  by unfold State.settleShadow; split <;> rfl
@[simp] theorem State.settleShadow_cont_turnUsed (s : State) (sh : Shadow) : (s.settleShadow sh).cont.turnUsed = s.cont.turnUsed :=
  by unfold State.settleShadow; split <;> rfl
@[simp] theorem State.settleShadow_cont_hold (s : State) (sh : Shadow) : (s.settleShadow sh).cont.hold = s.cont.hold := by unfold State.settleShadow; split <;> rfl
@[simp] theorem State.settleShadow_cont_silent (s : State) (sh : Shadow) : (s.settleShadow sh).cont.silent = s.cont.silent := by unfold State.settleShadow; split <;> rfl

/-! `State.takeTail` -/

@[simp] theorem State.takeTail_line (s : State) (sender : Station) (check : Word) : (s.takeTail sender check).line = s.line :=
  by unfold State.takeTail; (repeat' split) <;> simp
@[simp] theorem State.takeTail_pending (s : State) (sender : Station) (check : Word) : (s.takeTail sender check).pending = s.pending :=
  by unfold State.takeTail; (repeat' split) <;> simp
@[simp] theorem State.takeTail_port_config (s : State) (sender : Station) (check : Word) : (s.takeTail sender check).port.config = s.port.config :=
  by unfold State.takeTail; (repeat' split) <;> simp
@[simp] theorem State.takeTail_port_locked (s : State) (sender : Station) (check : Word) : (s.takeTail sender check).port.locked = s.port.locked :=
  by unfold State.takeTail; (repeat' split) <;> simp
@[simp] theorem State.takeTail_port_digest (s : State) (sender : Station) (check : Word) : (s.takeTail sender check).port.digest = s.port.digest :=
  by unfold State.takeTail; (repeat' split) <;> simp
@[simp] theorem State.takeTail_port_masks (s : State) (sender : Station) (check : Word) : (s.takeTail sender check).port.masks = s.port.masks :=
  by unfold State.takeTail; (repeat' split) <;> simp
@[simp] theorem State.takeTail_port_notice (s : State) (sender : Station) (check : Word) : (s.takeTail sender check).port.notice = s.port.notice :=
  by unfold State.takeTail; (repeat' split) <;> simp
@[simp] theorem State.takeTail_port_sdo (s : State) (sender : Station) (check : Word) : (s.takeTail sender check).port.sdo = s.port.sdo :=
  by unfold State.takeTail; (repeat' split) <;> simp
@[simp] theorem State.takeTail_port_capture (s : State) (sender : Station) (check : Word) : (s.takeTail sender check).port.capture = s.port.capture :=
  by unfold State.takeTail; (repeat' split) <;> simp
@[simp] theorem State.takeTail_port_selected (s : State) (sender : Station) (check : Word) : (s.takeTail sender check).port.selected = s.port.selected :=
  by unfold State.takeTail; (repeat' split) <;> simp
@[simp] theorem State.takeTail_ctl_number (s : State) (sender : Station) (check : Word) : (s.takeTail sender check).ctl.number = s.ctl.number :=
  by unfold State.takeTail; (repeat' split) <;> simp
@[simp] theorem State.takeTail_ctl_nonceDraws (s : State) (sender : Station) (check : Word) : (s.takeTail sender check).ctl.nonceDraws = s.ctl.nonceDraws :=
  by unfold State.takeTail; (repeat' split) <;> simp
@[simp] theorem State.takeTail_cont_turnUsed (s : State) (sender : Station) (check : Word) : (s.takeTail sender check).cont.turnUsed = s.cont.turnUsed :=
  by unfold State.takeTail; (repeat' split) <;> simp
@[simp] theorem State.takeTail_cont_hold (s : State) (sender : Station) (check : Word) : (s.takeTail sender check).cont.hold = s.cont.hold :=
  by unfold State.takeTail; (repeat' split) <;> simp
@[simp] theorem State.takeTail_cont_silent (s : State) (sender : Station) (check : Word) : (s.takeTail sender check).cont.silent = s.cont.silent :=
  by unfold State.takeTail; (repeat' split) <;> simp

/-! `State.finishTrain` -/

@[simp] theorem State.finishTrain_port (s : State) : s.finishTrain.port = s.port := by unfold State.finishTrain; split <;> rfl
@[simp] theorem State.finishTrain_ctl (s : State) : s.finishTrain.ctl = s.ctl := by unfold State.finishTrain; split <;> rfl
@[simp] theorem State.finishTrain_line (s : State) : s.finishTrain.line = s.line := by unfold State.finishTrain; split <;> rfl
@[simp] theorem State.finishTrain_replica (s : State) : s.finishTrain.replica = s.replica := by unfold State.finishTrain; split <;> rfl
@[simp] theorem State.finishTrain_lease (s : State) : s.finishTrain.lease = s.lease := by unfold State.finishTrain; split <;> rfl
@[simp] theorem State.finishTrain_req (s : State) : s.finishTrain.req = s.req := by unfold State.finishTrain; split <;> rfl
@[simp] theorem State.finishTrain_pending (s : State) : s.finishTrain.pending = s.pending := by unfold State.finishTrain; split <;> rfl
@[simp] theorem State.finishTrain_cont_sendList (s : State) : s.finishTrain.cont.sendList = s.cont.sendList := by unfold State.finishTrain; split <;> rfl
@[simp] theorem State.finishTrain_cont_joinPending (s : State) : s.finishTrain.cont.joinPending = s.cont.joinPending := by unfold State.finishTrain; split <;> rfl
@[simp] theorem State.finishTrain_cont_leavePending (s : State) : s.finishTrain.cont.leavePending = s.cont.leavePending := by unfold State.finishTrain; split <;> rfl
@[simp] theorem State.finishTrain_cont_syncReqPending (s : State) : s.finishTrain.cont.syncReqPending = s.cont.syncReqPending :=
  by unfold State.finishTrain; split <;> rfl
@[simp] theorem State.finishTrain_cont_heartbeatDue (s : State) : s.finishTrain.cont.heartbeatDue = s.cont.heartbeatDue := by unfold State.finishTrain; split <;> rfl
@[simp] theorem State.finishTrain_cont_trainIntent (s : State) : s.finishTrain.cont.trainIntent = s.cont.trainIntent := by unfold State.finishTrain; split <;> rfl
@[simp] theorem State.finishTrain_cont_turnUsed (s : State) : s.finishTrain.cont.turnUsed = s.cont.turnUsed := by unfold State.finishTrain; split <;> rfl
@[simp] theorem State.finishTrain_cont_hold (s : State) : s.finishTrain.cont.hold = s.cont.hold := by unfold State.finishTrain; split <;> rfl
@[simp] theorem State.finishTrain_cont_silent (s : State) : s.finishTrain.cont.silent = s.cont.silent := by unfold State.finishTrain; split <;> rfl
@[simp] theorem State.finishTrain_cont_offer (s : State) : s.finishTrain.cont.offer = s.cont.offer := by unfold State.finishTrain; split <;> rfl
@[simp] theorem State.finishTrain_sync_shadow (s : State) : s.finishTrain.sync.shadow = s.sync.shadow := by unfold State.finishTrain; split <;> rfl
@[simp] theorem State.finishTrain_sync_retry (s : State) : s.finishTrain.sync.retry = s.sync.retry := by unfold State.finishTrain; split <;> rfl

/-! `State.passSlot` -/

@[simp] theorem State.passSlot_port (s : State) : s.passSlot.port = s.port := rfl
@[simp] theorem State.passSlot_cont (s : State) : s.passSlot.cont = s.cont := rfl
@[simp] theorem State.passSlot_replica (s : State) : s.passSlot.replica = s.replica := rfl
@[simp] theorem State.passSlot_pending (s : State) : s.passSlot.pending = s.pending := rfl
@[simp] theorem State.passSlot_ctl_number (s : State) : s.passSlot.ctl.number = s.ctl.number := rfl
@[simp] theorem State.passSlot_ctl_nonceDraws (s : State) : s.passSlot.ctl.nonceDraws = s.ctl.nonceDraws := rfl
@[simp] theorem State.passSlot_ctl_state (s : State) : s.passSlot.ctl.state = s.ctl.state := rfl
@[simp] theorem State.passSlot_ctl_heardState (s : State) : s.passSlot.ctl.heardState = s.ctl.heardState := rfl
@[simp] theorem State.passSlot_ctl_rejectCount (s : State) : s.passSlot.ctl.rejectCount = s.ctl.rejectCount := rfl
@[simp] theorem State.passSlot_ctl_cleanCount (s : State) : s.passSlot.ctl.cleanCount = s.ctl.cleanCount := rfl
@[simp] theorem State.passSlot_line_checkAcc (s : State) : s.passSlot.line.checkAcc = s.line.checkAcc := rfl
@[simp] theorem State.passSlot_line_answer (s : State) : s.passSlot.line.answer = s.line.answer := rfl
@[simp] theorem State.passSlot_line_overrun (s : State) : s.passSlot.line.overrun = s.line.overrun := rfl
@[simp] theorem State.passSlot_lease_reapSet (s : State) : s.passSlot.lease.reapSet = s.lease.reapSet := rfl
@[simp] theorem State.passSlot_sync_phase (s : State) : s.passSlot.sync.phase = s.sync.phase := rfl
@[simp] theorem State.passSlot_sync_cursor (s : State) : s.passSlot.sync.cursor = s.sync.cursor := rfl
@[simp] theorem State.passSlot_sync_sendCheck (s : State) : s.passSlot.sync.sendCheck = s.sync.sendCheck := rfl
@[simp] theorem State.passSlot_sync_shadow (s : State) : s.passSlot.sync.shadow = s.sync.shadow := rfl
@[simp] theorem State.passSlot_req_queue (s : State) : s.passSlot.req.queue = s.req.queue := rfl


/-! The line unit's own updates -/

@[simp] theorem LineUnit.startMark_idleCount (l : LineUnit) : (l.startMark).idleCount = 0 := rfl
@[simp] theorem LineUnit.startMark_rx (l : LineUnit) : (l.startMark).rx = .filling [] := rfl
@[simp] theorem LineUnit.startMark_checkAcc (l : LineUnit) : (l.startMark).checkAcc = checkPreset := rfl
@[simp] theorem LineUnit.startMark_answer (l : LineUnit) : (l.startMark).answer = none := rfl
@[simp] theorem LineUnit.startMark_overrun (l : LineUnit) : (l.startMark).overrun = l.overrun := rfl
@[simp] theorem LineUnit.startMark_dominantLeft (l : LineUnit) : (l.startMark).dominantLeft = l.dominantLeft := rfl
@[simp] theorem LineUnit.overrunMark_idleCount (l : LineUnit) : (l.overrunMark).idleCount = 0 := rfl
@[simp] theorem LineUnit.overrunMark_rx (l : LineUnit) : (l.overrunMark).rx = l.rx := rfl
@[simp] theorem LineUnit.overrunMark_checkAcc (l : LineUnit) : (l.overrunMark).checkAcc = checkPreset := rfl
@[simp] theorem LineUnit.overrunMark_answer (l : LineUnit) : (l.overrunMark).answer = none := rfl
@[simp] theorem LineUnit.overrunMark_overrun (l : LineUnit) : (l.overrunMark).overrun = true := rfl
@[simp] theorem LineUnit.overrunMark_dominantLeft (l : LineUnit) : (l.overrunMark).dominantLeft = l.dominantLeft := rfl
@[simp] theorem LineUnit.sampled_idleCount (l : LineUnit) (slots : List Bool) : (l.sampled slots).idleCount = l.idleCount := rfl
@[simp] theorem LineUnit.sampled_rx (l : LineUnit) (slots : List Bool) : (l.sampled slots).rx = .filling slots := rfl
@[simp] theorem LineUnit.sampled_checkAcc (l : LineUnit) (slots : List Bool) : (l.sampled slots).checkAcc = slotsCheck slots := rfl
@[simp] theorem LineUnit.sampled_answer (l : LineUnit) (slots : List Bool) : (l.sampled slots).answer = l.answer := rfl
@[simp] theorem LineUnit.sampled_overrun (l : LineUnit) (slots : List Bool) : (l.sampled slots).overrun = l.overrun := rfl
@[simp] theorem LineUnit.sampled_dominantLeft (l : LineUnit) (slots : List Bool) : (l.sampled slots).dominantLeft = l.dominantLeft := rfl
@[simp] theorem LineUnit.idleAt_idleCount (l : LineUnit) (n : Nat) : (l.idleAt n).idleCount = n := rfl
@[simp] theorem LineUnit.idleAt_checkAcc (l : LineUnit) (n : Nat) : (l.idleAt n).checkAcc = l.checkAcc := rfl
@[simp] theorem LineUnit.idleAt_answer (l : LineUnit) (n : Nat) : (l.idleAt n).answer = l.answer := rfl
@[simp] theorem LineUnit.idleAt_overrun (l : LineUnit) (n : Nat) : (l.idleAt n).overrun = l.overrun := rfl
@[simp] theorem LineUnit.idleAt_dominantLeft (l : LineUnit) (n : Nat) : (l.idleAt n).dominantLeft = l.dominantLeft := rfl
@[simp] theorem LineUnit.restarted_idleCount (l : LineUnit) : (l.restarted).idleCount = 0 := rfl
@[simp] theorem LineUnit.restarted_rx (l : LineUnit) : (l.restarted).rx = .empty := rfl
@[simp] theorem LineUnit.restarted_checkAcc (l : LineUnit) : (l.restarted).checkAcc = 0xFFFF#16 := rfl
@[simp] theorem LineUnit.restarted_answer (l : LineUnit) : (l.restarted).answer = none := rfl
@[simp] theorem LineUnit.restarted_overrun (l : LineUnit) : (l.restarted).overrun = false := rfl
@[simp] theorem LineUnit.restarted_dominantLeft (l : LineUnit) : (l.restarted).dominantLeft = l.dominantLeft := rfl

/-- An idle count below START_GAP leaves the receive buffer as it is. -/
theorem LineUnit.idleAt_rx_of_lt (l : LineUnit) {n : Nat} (h : n < 6) : (l.idleAt n).rx = l.rx := by
  simp [LineUnit.idleAt, Config.startGap, Nat.not_le.mpr h]

/-- From START_GAP on the receive buffer is not HELD. -/
theorem LineUnit.idleAt_not_held (l : LineUnit) {n : Nat} (h : 6 ≤ n) : (l.idleAt n).rx.isHeld = false := by
  unfold LineUnit.idleAt Config.startGap
  cases hr : l.rx <;> simp [RxBuffer.isHeld, h]

/-! `State.csnFalls` and `State.transact` -/

@[simp] theorem State.csnFalls_ctl (s : State) : s.csnFalls.ctl = s.ctl := rfl
@[simp] theorem State.csnFalls_line (s : State) : s.csnFalls.line = s.line := rfl
@[simp] theorem State.csnFalls_cont (s : State) : s.csnFalls.cont = s.cont := rfl
@[simp] theorem State.csnFalls_replica (s : State) : s.csnFalls.replica = s.replica := rfl
@[simp] theorem State.csnFalls_lease (s : State) : s.csnFalls.lease = s.lease := rfl
@[simp] theorem State.csnFalls_sync (s : State) : s.csnFalls.sync = s.sync := rfl
@[simp] theorem State.csnFalls_req (s : State) : s.csnFalls.req = s.req := rfl
@[simp] theorem State.csnFalls_pending (s : State) : s.csnFalls.pending = s.pending := rfl
@[simp] theorem State.csnFalls_port_config (s : State) : s.csnFalls.port.config = s.port.config := rfl
@[simp] theorem State.csnFalls_port_locked (s : State) : s.csnFalls.port.locked = s.port.locked := rfl
@[simp] theorem State.csnFalls_port_digest (s : State) : s.csnFalls.port.digest = s.port.digest := rfl
@[simp] theorem State.csnFalls_port_flags (s : State) : s.csnFalls.port.flags = s.port.flags := rfl
@[simp] theorem State.csnFalls_port_masks (s : State) : s.csnFalls.port.masks = s.port.masks := rfl
@[simp] theorem State.csnFalls_port_notice (s : State) : s.csnFalls.port.notice = s.port.notice := rfl
@[simp] theorem State.csnFalls_port_sdo (s : State) : s.csnFalls.port.sdo = s.port.sdo := rfl
@[simp] theorem State.csnFalls_port_selected (s : State) : s.csnFalls.port.selected = some s.header := rfl
@[simp] theorem State.csnFalls_port_capture (s : State) : s.csnFalls.port.capture = none := rfl
@[simp] theorem State.transact_csnFalls (s : State) (run : Nat → State) : s.transact .csnFalls run = s.csnFalls := rfl
@[simp] theorem State.transact_clocked (s : State) (after : Nat) (run : Nat → State) : s.transact (.clocked after) run = run after := rfl
@[simp] theorem State.shiftOut_port_selected (s : State) (inputs after : Nat) (out : List Byte) (t : State) : (State.shiftOut s inputs after out t).port.selected = none := rfl
@[simp] theorem State.shiftOut_port_capture (s : State) (inputs after : Nat) (out : List Byte) (t : State) : (State.shiftOut s inputs after out t).port.capture = none := rfl
@[simp] theorem State.shiftOut_port_sdo (s : State) (inputs after : Nat) (out : List Byte) (t : State) :
    (State.shiftOut s inputs after out t).port.sdo = s.shiftedHeader :: (List.replicate inputs 0#8 ++ outputBytes after out) := rfl

/-- A transaction keeps what its CSn fall and its run both keep. -/
theorem State.transact_keeps {α : Type} (p : State → α) (s : State) (spi : Spi) (run : Nat → State) (hf : p s.csnFalls = p s)
    (hr : ∀ after, p (run after) = p s) : p (s.transact spi run) = p s := by
  cases spi
  · exact hf
  · exact hr _

end Sys2Proof.Machine
end

