-- ==== Sys2Proof/Laws/Ops.lean ====
section
/-! SUPPORT. What the operations shared by the frame commands do, each said once: a frame heard, an own frame's end, the hold, the
notices of one apply. The proofs of statements about frames cite these. -/

namespace Sys2Proof.Machine

/-! ### The idle line -/

/-- The line is idle exactly when no frame is on it and it is not held dominant (R52). -/
theorem State.lineIdle_iff (s : State) : s.lineIdle = true ↔ s.frameInProgress = false ∧ s.line.dominantLeft = 0 := by
  simp [State.lineIdle]

/-- The line is busy exactly when a frame is on it or it is held dominant (R52). -/
theorem State.lineIdle_eq_false_iff (s : State) : s.lineIdle = false ↔ s.frameInProgress = true ∨ 0 < s.line.dominantLeft := by
  unfold State.lineIdle
  cases s.frameInProgress <;> simp

/-- After a frame's end the idle count is at zero (R52). -/
theorem State.frameEnds_idleCount (s : State) (rx : RxBuffer) (acc : Word) (answer : Option AnswerSlot) :
    (s.frameEnds rx acc answer).line.idleCount = 0 := rfl

/-! ### Station state and flags -/

@[simp] theorem State.enterEnd_replica (s : State) (st : StationState) : (s.enterEnd st).replica = Replica.empty := rfl
@[simp] theorem State.enterEnd_state (s : State) (st : StationState) : (s.enterEnd st).ctl.state = st := rfl
@[simp] theorem State.enterEnd_sendList (s : State) (st : StationState) : (s.enterEnd st).cont.sendList = [] := by
  simp [State.enterEnd, ContentionUnit.removeEntries, ContentionUnit.stopArbitration]
@[simp] theorem State.expel_replica (s : State) (st : StationState) (f : EventFlag) (n : Word) : (s.expel st f n).replica = Replica.empty := rfl
@[simp] theorem State.expel_state (s : State) (st : StationState) (f : EventFlag) (n : Word) : (s.expel st f n).ctl.state = st := rfl
@[simp] theorem State.expel_req (s : State) (st : StationState) (f : EventFlag) (n : Word) : (s.expel st f n).req = s.req.evictAll n := rfl
@[simp] theorem State.expel_flag (s : State) (st : StationState) (f g : EventFlag) (n : Word) :
    (s.expel st f n).port.flag g = (s.port.flag g || decide (g = f)) := by
  simp [State.expel, State.enterEnd]
@[simp] theorem State.depart_replica (s : State) (n : Word) : (s.depart n).replica = Replica.empty := rfl
@[simp] theorem State.depart_state (s : State) (n : Word) : (s.depart n).ctl.state = .departed := rfl
@[simp] theorem State.loseStep_state (s : State) (q : Bool) : (s.loseStep q).ctl.state = .outOfStep := by unfold State.loseStep; cases q <;> rfl
@[simp] theorem State.loseStep_replica (s : State) (q : Bool) : (s.loseStep q).replica = { s.replica with valid := false } := by
  unfold State.loseStep; cases q <;> rfl
@[simp] theorem State.loseStep_syncReqPending (s : State) (q : Bool) : (s.loseStep q).cont.syncReqPending = true := by
  unfold State.loseStep; cases q <;> rfl
@[simp] theorem State.enterListening_state (s : State) : s.enterListening.ctl.state = .listening := rfl
@[simp] theorem State.enterListening_joinWait (s : State) : s.enterListening.ctl.joinWait = .running (s.leaseUs / 2) := rfl

/-! ### Timing constants of the station -/

@[simp] theorem State.leaseUs_of_port (s : State) (t : State) (h : t.port.config = s.port.config) (h' : t.port.locked = s.port.locked) :
    t.leaseUs = s.leaseUs := by
  simp [State.leaseUs, PortUnit.leaseUs, PortUnit.configByte, h, h']

/-! ### Port transactions -/

/-- What SDO shifts out behind the input: the output bytes as far as they are clocked, then 00h (R159). -/
theorem outputBytes_eq (after : Nat) (out : List Byte) :
    outputBytes after out = out.take after ++ List.replicate (after - out.length) 0#8 := by
  simp [outputBytes, List.take_append, List.take_replicate]

/-! ### The hold -/

/-- A hold that ends abandoned leaves none, and silent clear (R82). -/
@[simp] theorem State.abandonHold_hold (s : State) (h : Station) :
    (s.abandonHold h).cont.hold = none ∧ (s.abandonHold h).cont.silent = false := by
  unfold State.abandonHold
  constructor <;> dsimp only <;> split <;> split <;> rfl

/-- What a completed frame leaves of the hold (R80, R82): the sender's with CONT = 1, none with CONT = 0. -/
theorem State.followHold_hold (s : State) (x : Station) (c : Bool) : (s.followHold x c).cont.hold = if c then some x else none := by
  unfold State.followHold
  cases hh : s.cont.hold with
  | none => cases c <;> simp [hh]
  | some h =>
    by_cases hx : h = x
    · subst hx; cases c <;> simp
    · cases c <;> simp [hx]

/-- A frame that is no intrusion moves the hold and, at its end, silent; nothing else. -/
theorem State.followHold_quiet (s : State) (x : Station) (c : Bool) (h : s.cont.hold = none ∨ s.cont.hold = some x) :
    s.followHold x c = { s with cont := { s.cont with hold := if c then some x else none,
                                                      silent := if s.cont.hold = some x ∧ c = false then false else s.cont.silent } } := by
  obtain ⟨port, ctl, line, cont, replica, lease, sync, req, pending⟩ := s
  obtain ⟨sl, jp, lp, sp, hd, ti, at', tu, hold, silent, offer⟩ := cont
  unfold State.followHold
  rcases h with h | h <;> dsimp only at h <;> subst h <;> cases c <;> simp

/-- All that a completed frame does to the hold and to silent (R80, R82). -/
theorem State.followHold_follows (s : State) (x : Station) (c : Bool) : s.holdFollows (s.followHold x c) x c := by
  refine ⟨State.followHold_hold s x c, ?_, ?_, ?_⟩
  · intro h
    have q : s.cont.hold = none ∨ s.cont.hold = some x := h.imp_right And.left
    rw [s.followHold_quiet x c q]
    rcases h with h | ⟨h, rfl⟩ <;> simp [h]
  · rintro h rfl; rw [s.followHold_quiet x false (.inr h)]; simp [h]
  · intro h hh hx
    have key : (s.abandonHold h).cont.silent = false := by
      unfold State.abandonHold State.dropShadow State.endTrain; dsimp only; split <;> split <;> rfl
    unfold State.followHold; rw [hh]; simp only [if_neg hx]; split <;> exact key

/-! ### Attempts -/

/-- A failed attempt adds to its frame's count and to no other (R83). -/
theorem State.failAttempt_counted (s : State) (src : OfferSource) : s.failureCounted (s.failAttempt src).clearOffer src := by
  cases src with
  | entry tag =>
    refine ⟨by simp, by simp, by simp, by simp, by simp, by simp, ?_, fun h => absurd rfl (h tag), ?_⟩
    · intro _ _; unfold State.failAttempt; dsimp only; split <;> rfl
    · unfold State.failAttempt; dsimp only; split <;> rfl
  | reap y =>
    refine ⟨by simp, by simp, by simp, by simp, by simp, fun _ _ => rfl, by simp, fun _ => ⟨rfl, rfl⟩, rfl⟩
  | _ => refine ⟨?_, ?_, ?_, ?_, ?_, by simp, by simp, fun _ => ⟨rfl, rfl⟩, rfl⟩ <;> intro h <;> first | rfl | cases h

/-! ### Data slots -/

theorem lastCheckCame_eq_true (slots : List Bool) :
    lastCheckCame slots = true ↔ 33 ≤ slots.length ∧ 49 + 8 * lenSlots slots ≤ slots.length := by
  simp [lastCheckCame]

/-! ### A frame heard -/

/-- OFFLINE, while an own frame is past arbitration, and in an overrun no other frame is heard (R54, R65, R76). -/
theorem State.receive_deaf (s : State) (k : FrameKind) (h : Head) (body : List Byte) (a : Answers) (answer : Option AnswerSlot)
    (deliver : State → State) (hs : s.canHear = false) : s.receive k h body a answer deliver = s := by
  unfold State.receive; simp [hs]

/-- What a frame heard does before its delivery: an offer in arbitration has lost, the line has ended the frame, the sender is
heard, the frame counts as clean. -/
def State.heardClean (s : State) (k : FrameKind) (h : Head) (body : List Byte) (a : Answers) (answer : Option AnswerSlot) : State :=
  (((({ s with cont := s.cont.loseArbitration } : State).frameEnds (.held { fields := heardRaw k h body, answers := a, sent := false })
      (frameCheck (heardRaw k h body)) answer).hear h.station).countClean)

/-- A frame heard that passes this station's checks, with REJECT dominant. -/
theorem State.receive_rejected (s : State) (k : FrameKind) (h : Head) (body : List Byte) (a : Answers) (answer : Option AnswerSlot)
    (deliver : State → State) (hs : s.canHear = true) (hg : (lenGood k body.length && bodyGood s.tableSize k body) = true)
    (ha : a.reject = true) : s.receive k h body a answer deliver = s.heardClean k h body a answer := by
  unfold State.receive State.heardClean
  simp only [hs, hg, ha]
  simp

/-- A frame heard that passes this station's checks, with REJECT recessive: it is delivered after the hold has followed it, and
then the own-number rule acts. -/
theorem State.receive_completed (s : State) (k : FrameKind) (h : Head) (body : List Byte) (a : Answers) (answer : Option AnswerSlot)
    (deliver : State → State) (hs : s.canHear = true) (hg : (lenGood k body.length && bodyGood s.tableSize k body) = true)
    (ha : a.reject = false) :
    s.receive k h body a answer deliver =
      (let t := deliver ((s.heardClean k h body a answer).followHold h.station h.cont)
       if h.station = s.ctl.number ∧ s.ctl.state.ownNumberRule = true then t.expel .refused .clash 0#16 else t) := by
  unfold State.receive State.heardClean
  simp only [hs, hg, ha]
  simp

/-- A frame heard that fails this station's checks is a format error here. -/
theorem State.receive_bad (s : State) (k : FrameKind) (h : Head) (body : List Byte) (a : Answers) (answer : Option AnswerSlot)
    (deliver : State → State) (hs : s.canHear = true) (hg : (lenGood k body.length && bodyGood s.tableSize k body) = false) :
    s.receive k h body a answer deliver = s.badFrame (frameCheck (heardRaw k h body)) := by
  unfold State.receive
  simp only [hs, hg]
  simp

/-- What a clean frame leaves of the units. -/
theorem State.heardClean_units (s : State) (k : FrameKind) (h : Head) (body : List Byte) (a : Answers) (answer : Option AnswerSlot) :
    (s.heardClean k h body a answer).port = s.port ∧ (s.heardClean k h body a answer).replica = s.replica ∧
    (s.heardClean k h body a answer).sync = s.sync ∧ (s.heardClean k h body a answer).req = s.req ∧
    (s.heardClean k h body a answer).pending = s.pending ∧ (s.heardClean k h body a answer).ctl.state = s.ctl.state ∧
    (s.heardClean k h body a answer).ctl.number = s.ctl.number ∧ (s.heardClean k h body a answer).cont.hold = s.cont.hold ∧
    (s.heardClean k h body a answer).cont.sendList = s.cont.sendList := by
  unfold State.heardClean
  refine ⟨?_, ?_, ?_, ?_, ?_, ?_, ?_, ?_, ?_⟩ <;>
    (unfold State.countClean State.hear State.dropReap State.setLease; repeat' (first | rfl | split))

/-! ### The station's own frame -/

/-- Nothing of this station's ends when it has no frame of the kind. -/
theorem State.ownFrameEnds_none (s : State) (k : FrameKind) (a : Answers) (complete : OfferSource → TxFrame → State → State)
    (h : ∀ o, s.cont.offer = some o → o.frame.kind ≠ k) : s.ownFrameEnds k a complete = s := by
  unfold State.ownFrameEnds
  cases ho : s.cont.offer with
  | none => rfl
  | some o => simp [h o ho]

/-- The line and turn-used when an own frame past arbitration has run to its last answer slot. -/
def State.ownFrameRan (s : State) (o : Offer) (a : Answers) : State :=
  let t := s.frameEnds (.held { fields := o.frame.raw s.ctl.number, answers := a, sent := true }) (frameCheck (o.frame.raw s.ctl.number)) none
  { t with cont := { t.cont with turnUsed := t.cont.turnUsed || decide (2 ≤ o.frame.kind.cls.toNat), offer := some { o with phase := .answering } } }

/-- An own frame past arbitration, ended with REJECT dominant or recessive. -/
theorem State.ownFrameEnds_sending (s : State) (o : Offer) (a : Answers) (complete : OfferSource → TxFrame → State → State)
    (ho : s.cont.offer = some o) (hp : o.phase ≠ .arbitrating) :
    s.ownFrameEnds o.frame.kind a complete =
      if a.reject then ((s.ownFrameRan o a).failAttempt o.source).clearOffer
      else complete o.source o.frame ((s.ownFrameRan o a).followHold s.ctl.number o.frame.cont).clearOffer := by
  have hpass : s.passArbitration = s := by
    unfold State.passArbitration
    rw [ho]
    simp [hp]
  unfold State.ownFrameEnds State.ownFrameRan
  rw [ho, hpass]
  simp [State.frameEnds]

/-! ### Notices -/

/-- A notice touches nothing of the contention unit but the send list and an offer from it. -/
@[simp] theorem State.notice_line_fields (s : State) (n : Word) (g : TableGrant) :
    (s.notice n g).cont.hold = s.cont.hold ∧ (s.notice n g).cont.turnUsed = s.cont.turnUsed ∧
    (s.notice n g).cont.silent = s.cont.silent ∧ (s.notice n g).cont.attempts = s.cont.attempts := by
  unfold State.notice
  split
  · dsimp only
    split <;> exact ⟨rfl, rfl, rfl, rfl⟩
  · exact ⟨rfl, rfl, rfl, rfl⟩

/-- The notices of one apply reach the request unit and the send list alone. -/
theorem State.notices_units (s : State) (n : Word) (gs : List TableGrant) :
    (gs.foldl (fun s g => s.notice n g) s).port = s.port ∧ (gs.foldl (fun s g => s.notice n g) s).ctl = s.ctl ∧
    (gs.foldl (fun s g => s.notice n g) s).line = s.line ∧ (gs.foldl (fun s g => s.notice n g) s).replica = s.replica ∧
    (gs.foldl (fun s g => s.notice n g) s).lease = s.lease ∧ (gs.foldl (fun s g => s.notice n g) s).sync = s.sync ∧
    (gs.foldl (fun s g => s.notice n g) s).pending = s.pending ∧ (gs.foldl (fun s g => s.notice n g) s).cont.hold = s.cont.hold ∧
    (gs.foldl (fun s g => s.notice n g) s).cont.turnUsed = s.cont.turnUsed := by
  induction gs generalizing s with
  | nil => exact ⟨rfl, rfl, rfl, rfl, rfl, rfl, rfl, rfl, rfl⟩
  | cons g gs ih =>
    have h := ih (s.notice n g)
    simpa using h

/-- Grants to other stations produce no notice here (R22). -/
theorem State.notices_of_others (s : State) (n : Word) (gs : List TableGrant)
    (h : ∀ g ∈ gs, g.grant.waiter.station ≠ s.ctl.number) : gs.foldl (fun s g => s.notice n g) s = s := by
  induction gs with
  | nil => rfl
  | cons g gs ih =>
    have hg : s.notice n g = s := by
      unfold State.notice
      simp [h g List.mem_cons_self]
    rw [List.foldl_cons, hg]
    exact ih fun g' hg' => h g' (List.mem_cons_of_mem _ hg')

end Sys2Proof.Machine
end

