-- ==== Sys2Proof/Laws/PerInstr.lean ====
section
/-! SUPPORT. What well-formedness says of each command, one lemma for each constructor. -/

namespace Sys2Proof

/-- What a well-formed command's operands satisfy: lengths that the row's own fields give, a code that is not in Table 9-1,
bytes that make no whole transaction and none after them, a data slot of the arbitration field or past it. -/
def Instr.operandLaw : Instr → Prop
  | .writeConfig _ count data _ => data.length = count.toNat
  | .unknownTransactionCode code _ => knownCode code = false
  | .transactionCutShort bytes spi => cutShort bytes = true ∧ (spi = .csnFalls ∨ spi = .clocked 0)
  | .arbitrationLost slot => slot < 6
  | .bitError slot => 6 ≤ slot
  | .snapHead (.heard _ body) _ => body.length = 10
  | .snapEntry (.heard _ body) _ => 6 ≤ body.length ∧ body.length ≤ 40
  | .formatError frame => frame.body.length = frame.len.toNat
  | .truncation bits => bits.length < 553
  | .receiveOverrun frame => frame.body.length = frame.len.toNat
  | _ => True

/-- The check accepts a command exactly when its operands satisfy the law. -/
def Laws.WellFormedCheck.Statement (i : Instr) : Prop := i.wellFormed = true ↔ i.operandLaw

theorem Laws.WellFormedCheck.hardwareReset (straps : BitVec 4) : Statement (.hardwareReset straps) := ⟨fun _ => trivial, fun _ => rfl⟩
theorem Laws.WellFormedCheck.readStatus (spi : Spi) : Statement (.readStatus spi) := ⟨fun _ => trivial, fun _ => rfl⟩
theorem Laws.WellFormedCheck.readEntry (index : Byte) (spi : Spi) : Statement (.readEntry index spi) := ⟨fun _ => trivial, fun _ => rfl⟩
theorem Laws.WellFormedCheck.readRoster (spi : Spi) : Statement (.readRoster spi) := ⟨fun _ => trivial, fun _ => rfl⟩
theorem Laws.WellFormedCheck.take (spi : Spi) : Statement (.take spi) := ⟨fun _ => trivial, fun _ => rfl⟩
theorem Laws.WellFormedCheck.takeRecordRemoval : Statement .takeRecordRemoval := ⟨fun _ => trivial, fun _ => rfl⟩
theorem Laws.WellFormedCheck.submit (record : RequestRecord) (spi : Spi) : Statement (.submit record spi) := ⟨fun _ => trivial, fun _ => rfl⟩
theorem Laws.WellFormedCheck.cancel (tag : Byte) (spi : Spi) : Statement (.cancel tag spi) := ⟨fun _ => trivial, fun _ => rfl⟩
theorem Laws.WellFormedCheck.clearFlags (mask : Word) (spi : Spi) : Statement (.clearFlags mask spi) := ⟨fun _ => trivial, fun _ => rfl⟩
theorem Laws.WellFormedCheck.writeMasks (masks : Word) (notice : Byte) (spi : Spi) : Statement (.writeMasks masks notice spi) := ⟨fun _ => trivial, fun _ => rfl⟩
theorem Laws.WellFormedCheck.writeConfig (offset count : Byte) (data : List Byte) (spi : Spi) : Statement (.writeConfig offset count data spi) := beq_iff_eq
theorem Laws.WellFormedCheck.start (spi : Spi) : Statement (.start spi) := ⟨fun _ => trivial, fun _ => rfl⟩
theorem Laws.WellFormedCheck.portLeave (spi : Spi) : Statement (.portLeave spi) := ⟨fun _ => trivial, fun _ => rfl⟩
theorem Laws.WellFormedCheck.rejoin (spi : Spi) : Statement (.rejoin spi) := ⟨fun _ => trivial, fun _ => rfl⟩
theorem Laws.WellFormedCheck.restart (spi : Spi) : Statement (.restart spi) := ⟨fun _ => trivial, fun _ => rfl⟩
theorem Laws.WellFormedCheck.unknownTransactionCode (code : Byte) (spi : Spi) : Statement (.unknownTransactionCode code spi) :=
  Iff.of_eq (Bool.not_eq_true' (knownCode code))
theorem Laws.WellFormedCheck.transactionCutShort (bytes : List Byte) (spi : Spi) : Statement (.transactionCutShort bytes spi) := by
  simp [Statement, Instr.wellFormed, Instr.operandLaw]
theorem Laws.WellFormedCheck.offer : Statement .offer := ⟨fun _ => trivial, fun _ => rfl⟩
theorem Laws.WellFormedCheck.arbitrationLost (slot : Nat) : Statement (.arbitrationLost slot) := decide_eq_true_iff
theorem Laws.WellFormedCheck.arbitrationPassed : Statement .arbitrationPassed := ⟨fun _ => trivial, fun _ => rfl⟩
theorem Laws.WellFormedCheck.bitError (slot : Nat) : Statement (.bitError slot) := decide_eq_true_iff
theorem Laws.WellFormedCheck.join (origin : Origin JoinBody) (answers : Answers) : Statement (.join origin answers) := ⟨fun _ => trivial, fun _ => rfl⟩
theorem Laws.WellFormedCheck.leave (origin : Origin Unit) (answers : Answers) : Statement (.leave origin answers) := ⟨fun _ => trivial, fun _ => rfl⟩
theorem Laws.WellFormedCheck.heartbeat (origin : Origin Unit) (answers : Answers) : Statement (.heartbeat origin answers) := ⟨fun _ => trivial, fun _ => rfl⟩
theorem Laws.WellFormedCheck.reap (origin : Origin Byte) (answers : Answers) : Statement (.reap origin answers) := ⟨fun _ => trivial, fun _ => rfl⟩
theorem Laws.WellFormedCheck.claim (origin : Origin ClaimBody) (answers : Answers) : Statement (.claim origin answers) := ⟨fun _ => trivial, fun _ => rfl⟩
theorem Laws.WellFormedCheck.release (origin : Origin Byte) (answers : Answers) : Statement (.release origin answers) := ⟨fun _ => trivial, fun _ => rfl⟩
theorem Laws.WellFormedCheck.withdraw (origin : Origin Byte) (answers : Answers) : Statement (.withdraw origin answers) := ⟨fun _ => trivial, fun _ => rfl⟩
theorem Laws.WellFormedCheck.downgrade (origin : Origin Byte) (answers : Answers) : Statement (.downgrade origin answers) := ⟨fun _ => trivial, fun _ => rfl⟩
theorem Laws.WellFormedCheck.syncReq (origin : Origin Unit) (answers : Answers) : Statement (.syncReq origin answers) := ⟨fun _ => trivial, fun _ => rfl⟩
theorem Laws.WellFormedCheck.snapHead (origin : Origin (List Byte)) (answers : Answers) : Statement (.snapHead origin answers) := by
  cases origin with
  | own => exact ⟨fun _ => trivial, fun _ => rfl⟩
  | heard h body => exact beq_iff_eq
theorem Laws.WellFormedCheck.snapEntry (origin : Origin (List Byte)) (answers : Answers) : Statement (.snapEntry origin answers) := by
  cases origin with
  | own => exact ⟨fun _ => trivial, fun _ => rfl⟩
  | heard h body => exact (Bool.and_eq_true_iff.trans (and_congr decide_eq_true_iff decide_eq_true_iff))
theorem Laws.WellFormedCheck.snapTail (origin : Origin Word) (answers : Answers) : Statement (.snapTail origin answers) := ⟨fun _ => trivial, fun _ => rfl⟩
theorem Laws.WellFormedCheck.formatError (frame : RawFrame) : Statement (.formatError frame) := beq_iff_eq
theorem Laws.WellFormedCheck.truncation (bits : List Bool) : Statement (.truncation bits) := decide_eq_true_iff
theorem Laws.WellFormedCheck.receiveOverrun (frame : RawFrame) : Statement (.receiveOverrun frame) := beq_iff_eq
theorem Laws.WellFormedCheck.roundEnd : Statement .roundEnd := ⟨fun _ => trivial, fun _ => rfl⟩
theorem Laws.WellFormedCheck.holdTimeout : Statement .holdTimeout := ⟨fun _ => trivial, fun _ => rfl⟩
theorem Laws.WellFormedCheck.leaseExpired (station : Station) : Statement (.leaseExpired station) := ⟨fun _ => trivial, fun _ => rfl⟩
theorem Laws.WellFormedCheck.heartbeatDue : Statement .heartbeatDue := ⟨fun _ => trivial, fun _ => rfl⟩
theorem Laws.WellFormedCheck.retryTimerExpiry : Statement .retryTimerExpiry := ⟨fun _ => trivial, fun _ => rfl⟩
theorem Laws.WellFormedCheck.joinWaitElapsed : Statement .joinWaitElapsed := ⟨fun _ => trivial, fun _ => rfl⟩
theorem Laws.WellFormedCheck.waitTimerExpiry (tag : Byte) : Statement (.waitTimerExpiry tag) := ⟨fun _ => trivial, fun _ => rfl⟩
theorem Laws.WellFormedCheck.abandon : Statement .abandon := ⟨fun _ => trivial, fun _ => rfl⟩
theorem Laws.WellFormedCheck.enterMuted : Statement .enterMuted := ⟨fun _ => trivial, fun _ => rfl⟩
theorem Laws.WellFormedCheck.recovery : Statement .recovery := ⟨fun _ => trivial, fun _ => rfl⟩
theorem Laws.WellFormedCheck.glitch (slots : Nat) : Statement (.glitch slots) := ⟨fun _ => trivial, fun _ => rfl⟩

end Sys2Proof
end

