-- ==== Sys2Proof/Laws/Request.lean ====
section
/-! SUPPORT. What completions and changes of contexts do to the request unit. -/

namespace Sys2Proof.Machine

/-! ### Single contexts -/

@[simp] theorem Context.finish_tag (c : Context) : c.finish.tag = c.tag := rfl
@[simp] theorem Context.finish_state (c : Context) : c.finish.state = .done := rfl
@[simp] theorem Context.mark_tag (c : Context) (k : Cause) : (c.mark k).tag = c.tag := rfl
@[simp] theorem Context.mark_state (c : Context) (k : Cause) : (c.mark k).state = c.state := rfl
@[simp] theorem Context.mark_resource (c : Context) (k : Cause) : (c.mark k).resource = c.resource := rfl
@[simp] theorem Context.withdraw_tag (c : Context) : c.withdraw.tag = c.tag := rfl
@[simp] theorem Context.withdraw_state (c : Context) : c.withdraw.state = .withdrawing := rfl
@[simp] theorem Context.withdraw_resource (c : Context) : c.withdraw.resource = c.resource := rfl
@[simp] theorem Context.offered_tag (c : Context) : c.offered.tag = c.tag := by unfold Context.offered; split <;> rfl
@[simp] theorem Context.offered_resource (c : Context) : c.offered.resource = c.resource := by unfold Context.offered; split <;> rfl
@[simp] theorem Context.passed_tag (c : Context) : c.passed.tag = c.tag := by unfold Context.passed; split <;> rfl
@[simp] theorem Context.passed_resource (c : Context) : c.passed.resource = c.resource := by unfold Context.passed; split <;> rfl
@[simp] theorem Context.failed_tag (c : Context) : c.failed.tag = c.tag := by unfold Context.failed; split <;> rfl
@[simp] theorem Context.failed_resource (c : Context) : c.failed.resource = c.resource := by unfold Context.failed; split <;> rfl
@[simp] theorem Context.stale_tag (c : Context) : c.stale.tag = c.tag := by unfold Context.stale; split <;> rfl
@[simp] theorem Context.stale_resource (c : Context) : c.stale.resource = c.resource := by unfold Context.stale; split <;> rfl

/-- No report of the contention unit ends a context, and none opens a DONE one again. -/
theorem Context.reports_keep_done (c : Context) :
    (c.offered.state = .done ↔ c.state = .done) ∧ (c.passed.state = .done ↔ c.state = .done) ∧
    (c.failed.state = .done ↔ c.state = .done) ∧ (c.stale.state = .done ↔ c.state = .done) := by
  unfold Context.offered Context.passed Context.failed Context.stale
  cases h : c.state <;> simp [h]

/-! ### Completions -/

/-- A context completes only if it is open and its completion is decided. -/
theorem Context.decided_eq_some {f : Context → Option Completion} {c : Context} {k : Completion} :
    c.decided f = some k ↔ c.state ≠ .done ∧ f c = some k := by
  unfold Context.decided Context.isOpen
  cases c.state <;> simp

/-- Completions change no tag, and neither the number nor the order of the contexts in use. -/
@[simp] theorem RequestUnit.complete_tags (r : RequestUnit) (f : Context → Option Completion) :
    (r.complete f).contexts.map Context.tag = r.contexts.map Context.tag := by
  simp only [RequestUnit.complete, List.map_map]
  apply List.map_congr_left
  intro c _
  simp only [Function.comp]
  split <;> simp

@[simp] theorem RequestUnit.complete_length (r : RequestUnit) (f : Context → Option Completion) :
    (r.complete f).contexts.length = r.contexts.length := by simp [RequestUnit.complete]

/-- Each record is appended in the acceptance order of the contexts that completed. -/
theorem RequestUnit.complete_queue (r : RequestUnit) (f : Context → Option Completion) :
    (r.complete f).queue = r.queue ++ r.contexts.filterMap fun c => (c.decided f).map c.record := rfl

/-- A context after completions is one that stayed, or a finished one. -/
theorem RequestUnit.mem_complete {r : RequestUnit} {f : Context → Option Completion} {c : Context} :
    c ∈ (r.complete f).contexts ↔ ∃ d ∈ r.contexts, c = if (d.decided f).isSome then d.finish else d := by
  simp only [RequestUnit.complete, List.mem_map]
  exact ⟨fun ⟨d, hd, h⟩ => ⟨d, hd, h.symm⟩, fun ⟨d, hd, h⟩ => ⟨d, hd, h.symm⟩⟩

/-- Nothing decided, nothing done. -/
theorem RequestUnit.complete_of_none {r : RequestUnit} {f : Context → Option Completion}
    (h : ∀ c ∈ r.contexts, c.decided f = none) : r.complete f = r := by
  unfold RequestUnit.complete
  have hm : (r.contexts.map fun c => if (c.decided f).isSome then c.finish else c) = r.contexts := by
    conv_rhs => rw [← List.map_id r.contexts]
    apply List.map_congr_left
    intro c hc
    simp [h c hc]
  have hq : (r.contexts.filterMap fun c => (c.decided f).map c.record) = [] := by
    rw [List.filterMap_eq_nil_iff]
    intro c hc
    simp [h c hc]
  rw [hm, hq, List.append_nil]

/-! ### Changes by tag -/

@[simp] theorem RequestUnit.update_length (r : RequestUnit) (tag : Byte) (f : Context → Context) :
    (r.update tag f).contexts.length = r.contexts.length := by simp [RequestUnit.update]

/-- A change that keeps each tag keeps all tags. -/
theorem RequestUnit.update_tags (r : RequestUnit) (tag : Byte) (f : Context → Context) (h : ∀ c, (f c).tag = c.tag) :
    (r.update tag f).contexts.map Context.tag = r.contexts.map Context.tag := by
  simp only [RequestUnit.update, List.map_map]
  apply List.map_congr_left
  intro c _
  simp only [Function.comp]
  split
  · exact h c
  · rfl

/-- With no tag twice, the context found by a tag is the one that carries it. -/
theorem RequestUnit.find_of_mem {r : RequestUnit} (h : (r.contexts.map Context.tag).Nodup) {c : Context} (hc : c ∈ r.contexts) :
    r.find c.tag = some c := by
  unfold RequestUnit.find
  revert h hc
  generalize r.contexts = l
  intro h hc
  induction l with
  | nil => simp at hc
  | cons d l ih =>
    rw [List.map_cons, List.nodup_cons] at h
    rcases List.mem_cons.1 hc with rfl | hc
    · simp
    · have hne : d.tag ≠ c.tag := fun e => h.1 (e ▸ List.mem_map_of_mem hc)
      simp only [List.find?_cons, beq_eq_false_iff_ne.2 hne]
      exact ih h.2 hc

/-- A context found by a tag is in use and carries the tag. -/
theorem RequestUnit.mem_of_find {r : RequestUnit} {tag : Byte} {c : Context} (h : r.find tag = some c) :
    c ∈ r.contexts ∧ c.tag = tag :=
  ⟨List.mem_of_find?_eq_some h, by simpa using List.find?_some h⟩

/-- Finding by a tag after a change of the context with that tag, or with another. -/
theorem RequestUnit.find_update (r : RequestUnit) (tag t : Byte) (f : Context → Context) (h : ∀ c, (f c).tag = c.tag) :
    (r.update tag f).find t = if t = tag then (r.find t).map f else r.find t := by
  unfold RequestUnit.find RequestUnit.update
  generalize r.contexts = l
  induction l with
  | nil => simp
  | cons d l ih =>
    simp only [List.map_cons, List.find?_cons]
    by_cases hd : d.tag = tag
    · subst hd
      simp only [beq_self_eq_true, if_true, h]
      by_cases ht : t = d.tag
      · subst ht; simp
      · have : (d.tag == t) = false := beq_eq_false_iff_ne.2 fun e => ht e.symm
        simp only [this, if_neg ht]
        simpa [ht] using ih
    · have hb : (d.tag == tag) = false := beq_eq_false_iff_ne.2 hd
      simp only [hb, Bool.false_eq_true, if_false]
      cases hdt : (d.tag == t) with
      | true =>
        have e : d.tag = t := by simpa using hdt
        have : t ≠ tag := fun e' => hd (e.trans e')
        simp [this]
      | false => simpa using ih

end Sys2Proof.Machine
end

