-- ==== Sys2Proof/Laws/Table.lean ====
section
/-! SUPPORT. What the operations of the table engine do, each said once: reading an entry back after a write, promotion, removal,
and the parts of the replica an apply cannot change. -/

namespace Sys2Proof.Machine

/-! ### Entries -/

/-- There is no entry at 64 or above. -/
theorem Replica.entry_of_ge (r : Replica) {i : Nat} (h : 64 ≤ i) : r.entry i = Entry.empty := by
  simp [Replica.entry, h]

/-- An entry below 64 is the table's. -/
theorem Replica.entry_of_lt (r : Replica) {i : Nat} (h : i < 64) : r.entry i = r.table[i] := by
  simp [Replica.entry, h]

/-- Reading back after a write. -/
theorem Replica.entry_setEntry (r : Replica) (i j : Nat) (e : Entry) :
    (r.setEntry i e).entry j = if i = j ∧ j < 64 then e else r.entry j := by
  unfold Replica.entry Replica.setEntry
  by_cases h : j < 64
  · by_cases hij : i = j
    · subst hij; simp [h]
    · simp [h, hij]
  · simp [h]

theorem Replica.entry_setMembership (r : Replica) (x : Station) (m : Membership) (i : Nat) :
    (r.setMembership x m).entry i = r.entry i := rfl

theorem Replica.membership_setMembership (r : Replica) (x y : Station) (m : Membership) :
    (r.setMembership x m).membership y = if y = x then m else r.membership y := by
  unfold Replica.membership Replica.setMembership
  by_cases h : y = x
  · subst h; simp
  · have : x.val ≠ y.val := fun e => h (Fin.ext e.symm)
    simp [h, this]

/-! ### Grants and promotion -/

@[simp] theorem Entry.grant_permit (e : Entry) (x : Station) (m : Mode) : (e.grant x m).permit = e.permit := rfl
@[simp] theorem Entry.grant_sharedOk (e : Entry) (x : Station) (m : Mode) : (e.grant x m).sharedOk = e.sharedOk := rfl
@[simp] theorem Entry.grant_waiters (e : Entry) (x : Station) (m : Mode) : (e.grant x m).waiters = e.waiters := rfl
@[simp] theorem Entry.dropHolder_permit (e : Entry) (x : Station) : (e.dropHolder x).permit = e.permit := by unfold Entry.dropHolder; split <;> rfl
@[simp] theorem Entry.dropHolder_sharedOk (e : Entry) (x : Station) : (e.dropHolder x).sharedOk = e.sharedOk := by unfold Entry.dropHolder; split <;> rfl
@[simp] theorem Entry.dropHolder_waiters (e : Entry) (x : Station) : (e.dropHolder x).waiters = e.waiters := by unfold Entry.dropHolder; split <;> rfl
@[simp] theorem Entry.dropWaiter_permit (e : Entry) (x : Station) : (e.dropWaiter x).permit = e.permit := rfl
@[simp] theorem Entry.dropWaiter_sharedOk (e : Entry) (x : Station) : (e.dropWaiter x).sharedOk = e.sharedOk := rfl
@[simp] theorem Entry.dropWaiter_holders (e : Entry) (x : Station) : (e.dropWaiter x).holders = e.holders := rfl

/-- Promotion reads and changes the claim state alone: the attributes stay. -/
theorem promoteFrom_attributes (ws : List Waiter) (e : Entry) :
    (promoteFrom ws e).1.permit = e.permit ∧ (promoteFrom ws e).1.sharedOk = e.sharedOk := by
  induction ws generalizing e with
  | nil => exact ⟨rfl, rfl⟩
  | cons w ws ih =>
    unfold promoteFrom
    cases w.mode with
    | excl => dsimp only; split <;> exact ⟨rfl, rfl⟩
    | shared =>
      dsimp only
      split
      · exact ⟨rfl, rfl⟩
      · simpa using ih (e.grant w.station .shared)

/-- What a promotion does to the list: those granted stand before those left, in order. -/
theorem promoteFrom_split (ws : List Waiter) (e : Entry) :
    (promoteFrom ws e).2.map Grant.waiter ++ (promoteFrom ws e).1.waiters = ws := by
  induction ws generalizing e with
  | nil => rfl
  | cons w ws ih =>
    unfold promoteFrom
    cases w.mode with
    | excl => dsimp only; split <;> rfl
    | shared =>
      dsimp only
      split
      · rfl
      · simpa using ih (e.grant w.station .shared)

/-- A holder before a promotion is a holder after it. -/
theorem promoteFrom_keeps_holders (ws : List Waiter) (e : Entry) (x : Station) (h : e.holders.has x = true) :
    (promoteFrom ws e).1.holders.has x = true := by
  induction ws generalizing e with
  | nil => exact h
  | cons w ws ih =>
    unfold promoteFrom
    cases w.mode with
    | excl =>
      dsimp only
      split
      · simp [Entry.grant, StationSet.has_addStation, h]
      · exact h
    | shared =>
      dsimp only
      split
      · exact h
      · exact ih _ (by simp [Entry.grant, StationSet.has_addStation, h])

/-- A holder after a promotion was one before it or stood in the list. -/
theorem promoteFrom_holders (ws : List Waiter) (e : Entry) (x : Station) (h : (promoteFrom ws e).1.holders.has x = true) :
    e.holders.has x = true ∨ ∃ w ∈ ws, w.station = x := by
  induction ws generalizing e with
  | nil => exact Or.inl h
  | cons w ws ih =>
    unfold promoteFrom at h
    cases hm : w.mode with
    | excl =>
      rw [hm] at h
      dsimp only at h
      split at h
      · simp only [Entry.grant, StationSet.has_addStation, Bool.or_eq_true, decide_eq_true_eq] at h
        rcases h with h | h
        · exact Or.inl h
        · exact Or.inr ⟨w, List.mem_cons_self, h.symm⟩
      · exact Or.inl h
    | shared =>
      rw [hm] at h
      dsimp only at h
      split at h
      · exact Or.inl h
      · rcases ih _ h with h | ⟨v, hv, hx⟩
        · simp only [Entry.grant, StationSet.has_addStation, Bool.or_eq_true, decide_eq_true_eq] at h
          rcases h with h | h
          · exact Or.inl h
          · exact Or.inr ⟨w, List.mem_cons_self, h.symm⟩
        · exact Or.inr ⟨v, List.mem_cons_of_mem _ hv, hx⟩

/-- Each grant of a promotion moves GENERATION by one. -/
theorem promoteFrom_generation (ws : List Waiter) (e : Entry) :
    (promoteFrom ws e).1.generation = e.generation + BitVec.ofNat 16 (promoteFrom ws e).2.length := by
  induction ws generalizing e with
  | nil => simp [promoteFrom]
  | cons w ws ih =>
    unfold promoteFrom
    cases w.mode with
    | excl => dsimp only; split <;> simp [Entry.grant]
    | shared =>
      dsimp only
      split
      · simp
      · rw [ih]
        simp only [Entry.grant, List.length_cons]
        rw [Nat.add_comm, BitVec.ofNat_add, ← BitVec.add_assoc]

/-! ### Removal -/

/-- Removal of a station, entry by entry. -/
theorem Replica.entry_removeStation (r : Replica) (ts : Nat) (x : Station) (i : Nat) :
    (r.removeStation ts x).replica.entry i = if i < ts ∧ i < 64 then ((r.entry i).remove x).1 else r.entry i := by
  by_cases h : i < 64
  · rw [Replica.entry_of_lt _ h, Replica.entry_of_lt _ h]
    unfold Replica.removeStation
    by_cases hts : i < ts <;> simp [h, hts]
  · have h' : 64 ≤ i := by omega
    rw [Replica.entry_of_ge _ h', Replica.entry_of_ge _ h']
    simp [h]

@[simp] theorem Replica.removeStation_roster (r : Replica) (ts : Nat) (x : Station) : (r.removeStation ts x).replica.roster = r.roster := by
  simp only [Replica.removeStation]
@[simp] theorem Replica.removeStation_sequence (r : Replica) (ts : Nat) (x : Station) : (r.removeStation ts x).replica.sequence = r.sequence := by
  simp only [Replica.removeStation]
@[simp] theorem Replica.removeStation_valid (r : Replica) (ts : Nat) (x : Station) : (r.removeStation ts x).replica.valid = r.valid := by
  simp only [Replica.removeStation]

/-! ### Applies -/

/-- An entry's apply that leaves the entry as it was leaves the replica as it was. -/
theorem Replica.setEntry_self (r : Replica) (i : Nat) : r.setEntry i (r.entry i) = r := by
  unfold Replica.setEntry
  have ht : r.table.setIfInBounds i (r.entry i) = r.table := by
    by_cases h : i < 64
    · rw [Replica.entry_of_lt _ h]
      ext j hj
      by_cases hij : i = j
      · subst hij; simp
      · simp [hij]
    · ext j hj
      have : i ≠ j := by omega
      simp [this]
  rw [ht, Nat.add_sub_cancel]

/-- What no rule of Table 2-2 or Table 1-3 changes before the sequence advances. -/
theorem Replica.effect_sequence_valid (r : Replica) (ts : Nat) (x : Station) (b : StateBody) :
    (r.effect ts x b).replica.sequence = r.sequence ∧ (r.effect ts x b).replica.valid = r.valid := by
  cases b with
  | claim => exact ⟨rfl, rfl⟩
  | release => exact ⟨rfl, rfl⟩
  | withdraw => exact ⟨rfl, rfl⟩
  | downgrade => exact ⟨rfl, rfl⟩
  | join => simp only [Replica.effect]; split <;> simp [Replica.noEffect, Replica.setMembership]
  | leave => simp [Replica.effect, Replica.setMembership]
  | heartbeat => exact ⟨rfl, rfl⟩
  | reap t =>
    simp only [Replica.effect]
    split
    · split <;> simp [Replica.noEffect, Replica.setMembership]
    · exact ⟨rfl, rfl⟩

/-- Every apply advances the table sequence once and keeps validity. -/
theorem Replica.apply_sequence_valid (r : Replica) (ts : Nat) (x : Station) (b : StateBody) :
    (r.apply ts x b).replica.sequence = r.sequence + 1#16 ∧ (r.apply ts x b).replica.valid = r.valid := by
  unfold Replica.apply
  split
  · exact ⟨by simp [(r.effect_sequence_valid ts x b).1], by simp [(r.effect_sequence_valid ts x b).2]⟩
  · exact ⟨rfl, rfl⟩

/-- The roster is changed by roster frames alone. -/
theorem Replica.apply_roster_of_table (r : Replica) (ts : Nat) (x : Station) (b : StateBody)
    (h : b ≠ .join) (h' : b ≠ .leave) (h'' : ∀ t, b ≠ .reap t) : (r.apply ts x b).replica.roster = r.roster := by
  unfold Replica.apply
  split
  · cases b with
    | join => exact absurd rfl h
    | leave => exact absurd rfl h'
    | reap t => exact absurd rfl (h'' t)
    | claim => rfl
    | release => rfl
    | withdraw => rfl
    | downgrade => rfl
    | heartbeat => rfl
  · rfl

end Sys2Proof.Machine
end

