-- ==== Sys2Proof/Tests/Slice0.lean ====
section
/-! SUPPORT. The author's tests: ill-formed commands that the check refuses, the spec's worked examples, one small step per command,
and for each statement a state and operands that meet its hypotheses together. -/

namespace Sys2Proof.Tests

set_option Elab.async false

open Sys2Proof.Machine

/-! ### Helpers -/

/-- The outcome is a next state with a property. -/
def after (o : Host.Outcome State Fault Refusal) (p : State → Bool) : Bool :=
  match o with
  | .next t => p t
  | .fault _ => false
  | .refused _ => false

/-- A block of codes 0, all stations permitted, SHARED_OK everywhere. -/
def block : Vector Byte 195 := Vector.ofFn fun i : Fin 195 => if i.val < 3 then 0#8 else if i.val % 3 = 2 then 1#8 else 0xFF#8

/-- Station 3 after START in a station state. -/
def station (st : StationState) : State :=
  { State.reset with port := { PortUnit.reset with config := block, locked := true, digest := 0x1234#16 },
                     ctl := { StationController.reset 3 with state := st } }

/-- A state with a replica that station 3 founded and stations 1 and 2 joined, at sequence 7. -/
def withReplica (s : State) (valid : Bool) : State :=
  let r := ((s.port.founded 3).setMembership 1 .present).setMembership 2 .present
  { s with replica := { r with sequence := 7#16, valid := valid } }

/-- Station 3 IN_STEP. -/
def inStep : State := withReplica (station .inStep) true

/-- Station 3 OUT_OF_STEP. -/
def outOfStep : State := withReplica (station .outOfStep) false

/-- Station 3 LEAVING with its LEAVE pending. -/
def leaving : State :=
  let s := withReplica (station .leaving) true
  { s with cont := { s.cont with leavePending := true } }

/-- An entry of the replica replaced, the pool following. -/
def withEntry (s : State) (i : Nat) (e : Entry) : State := { s with replica := s.replica.setEntry i e }

/-- Entry held EXCL by a station, with waiters. -/
def heldBy (x : Station) (ws : List Waiter) : Entry :=
  { permit := 0xFFFF#16, sharedOk := true, state := .exclusive, holders := StationSet.addStation 0#16 x, waiters := ws, generation := 9#16 }

/-- A CLAIM context of resource 5 with a tag. -/
def claimOf5 (tag : Byte) (st : ContextState) (cause : Cause) (us : Timer) : Context :=
  { tag := tag, kind := .claim, mode := some .excl, resource := 5#8, waitLimit := 100#16, state := st, cause := cause, withdrawPhase := .none, waitTimer := us }

/-- A context in use, and, for a frame of it that is to be sent, its send-list entry. -/
def withContext (s : State) (c : Context) (kind : Option SendKind) : State :=
  { s with req := { s.req with contexts := s.req.contexts ++ [c] },
           cont := { s.cont with sendList := s.cont.sendList ++
             (kind.map fun k => { kind := k, tag := c.tag, resource := c.resource, mode := .excl, mayWait := true, attempts := 0, carried := false }).toList } }

/-- The line idle for some slots. -/
def idleFor (n : Nat) (s : State) : State := { s with line := { s.line with idleCount := n } }

/-- An own frame in a phase. -/
def offering (s : State) (phase : OfferPhase) (src : OfferSource) (k : FrameKind) (cont : Bool) (body : List Byte) : State :=
  { s with cont := { s.cont with offer := some { source := src, frame := { kind := k, cont := cont, seq := 7#16, body := body }, phase := phase } } }

/-- A waiting record of the completion queue. -/
def doneRecord (tag : Byte) : CompletionRecord :=
  { tag := tag, kind := .claim, mode := some .excl, tooLate := false, result := .granted, resource := 5#8, generation := 1#16, sequence := 2#16 }

def agreeing : Answers := { reject := false, agree := true, disagree := false }
def disagreeing : Answers := { reject := false, agree := false, disagree := true }
def silentLine : Answers := { reject := false, agree := false, disagree := false }
def rejecting : Answers := { reject := true, agree := false, disagree := false }

/-- The head of a frame of station x. -/
def headOfStation (x : Station) (seq : Word) : Head := { station := x, cont := false, seq := seq }

/-- A claim frame's body for resource 5. -/
def claimBody (modeByte : Byte) : ClaimBody := { resource := 5#8, modeByte := modeByte, tag := 9#8 }

/-- A request law is three decidable facts when no TAKE is in progress. -/
theorem requestLaw_of {s : State} (h : s.req.contexts.length ≤ 8 ∧ (s.req.contexts.map Context.tag).Nodup ∧
    s.req.doneTags.Perm (s.req.queue.map CompletionRecord.tag) ∧ s.port.capture = none) : s.requestLaw :=
  ⟨h.1, h.2.1, h.2.2.1, fun r hr => by rw [h.2.2.2] at hr; exact absurd hr (by simp)⟩

/-! ### Ill-formed commands are refused by the check -/

theorem test_writeConfig_count_is_checked : Instr.wellFormed (.writeConfig 0 2 [1#8] (.clocked 1)) = false := by decide +kernel
theorem test_unknownTransactionCode_is_unknown : Instr.wellFormed (.unknownTransactionCode 0x10#8 (.clocked 3)) = false := by decide +kernel
theorem test_transactionCutShort_is_short : Instr.wellFormed (.transactionCutShort [0x11#8, 7#8] (.clocked 0)) = false := by decide +kernel
theorem test_transactionCutShort_of_writeConfig : Instr.wellFormed (.transactionCutShort [0x20#8, 0#8] (.clocked 0)) = true := by decide +kernel
theorem test_transactionCutShort_has_no_bytes_after : Instr.wellFormed (.transactionCutShort [0x20#8, 0#8] (.clocked 1)) = false := by decide +kernel
theorem test_arbitrationLost_is_in_the_field : Instr.wellFormed (.arbitrationLost 6) = false := by decide +kernel
theorem test_bitError_is_past_arbitration : Instr.wellFormed (.bitError 5) = false := by decide +kernel
theorem test_snapHead_has_ten_bytes : Instr.wellFormed (.snapHead (.heard (headOfStation 1 0#16) [1#8]) agreeing) = false := by decide +kernel
theorem test_snapEntry_has_six_bytes : Instr.wellFormed (.snapEntry (.heard (headOfStation 1 0#16) [1#8]) agreeing) = false := by decide +kernel
theorem test_snapEntry_has_at_most_forty_bytes :
    Instr.wellFormed (.snapEntry (.heard (headOfStation 1 0#16) (List.replicate 41 0#8)) agreeing) = false := by decide +kernel
theorem test_formatError_body_is_len_long : Instr.wellFormed (.formatError { heardRaw .release (headOfStation 1 0#16) [5#8] with len := 2#6 }) = false := by
  decide +kernel
theorem test_truncation_is_shorter_than_a_frame : Instr.wellFormed (.truncation (List.replicate 553 false)) = false := by decide +kernel
theorem test_receiveOverrun_body_is_len_long :
    Instr.wellFormed (.receiveOverrun { heardRaw .release (headOfStation 1 0#16) [5#8] with len := 2#6 }) = false := by decide +kernel

/-! ### Worked examples of the spec -/

/-- Table 3-4: the example CLAIM of station 9, field by field as its bits are sent. -/
theorem test_table_3_4_bits :
    let t : TxFrame := { kind := .claim, cont := false, seq := 4410#16, body := [21#8, modeByte .shared true, 130#8] }
    frameBits (t.raw 9) =
      [true, true] ++ [true, false, false, true] ++ [true, false, true, true] ++ [false] ++
      [false, false, false, true, false, false, false, true, false, false, true, true, true, false, true, false] ++
      [false, false, false, false, true, true] ++ [false, false, false, true, false, true, false, true] ++
      [true, true, false, false, false, false, false, false] ++ [true, false, false, false, false, false, true, false] ∧
    (dataSlots (t.raw 9)).length + 6 = 79 ∧ readFrame (dataSlots (t.raw 9)) = some (t.raw 9) ∧ frameGood 32 (t.raw 9) = true := by decide +kernel

/-- Entry 5 of Table 1-5. -/
def entry5 : Entry :=
  { permit := 0x005E#16, sharedOk := true, state := .exclusive, holders := 0x0004#16, generation := 17#16,
    waiters := [{ station := 3, mode := .shared, tag := 4#8 }, { station := 4, mode := .shared, tag := 9#8 }, { station := 1, mode := .excl, tag := 2#8 },
                { station := 6, mode := .shared, tag := 7#8 }] }

/-- Entry 5 after frame 1 of Table 1-6. -/
def entry5after1 : Entry :=
  { entry5 with state := .shared, holders := 0x001C#16, generation := 19#16,
                waiters := [{ station := 1, mode := .excl, tag := 2#8 }, { station := 6, mode := .shared, tag := 7#8 }] }

theorem test_table_1_6_frame_1 : entry5.applyDowngrade 2 =
    { entry := entry5after1, code := .downgraded,
      grants := [{ waiter := { station := 3, mode := .shared, tag := 4#8 }, generation := 18#16 },
                 { waiter := { station := 4, mode := .shared, tag := 9#8 }, generation := 19#16 }] } := by decide +kernel
theorem test_table_1_6_frame_2 : entry5after1.applyClaim 8 6 .shared true 8#8 = { entry := entry5after1, code := .already, grants := [] } := by decide +kernel
theorem test_table_1_6_frames_3_and_4 :
    ((entry5after1.applyRelease 2).entry.applyRelease 3).entry = { entry5after1 with holders := 0x0010#16 } := by decide +kernel
theorem test_table_1_6_frame_5 : (({ entry5after1 with holders := 0x0010#16 } : Entry).applyRelease 4) =
    { entry := { entry5after1 with state := .exclusive, holders := 0x0002#16, generation := 20#16, waiters := [{ station := 6, mode := .shared, tag := 7#8 }] },
      code := .released, grants := [{ waiter := { station := 1, mode := .excl, tag := 2#8 }, generation := 20#16 }] } := by decide +kernel
theorem test_table_1_6_frame_6 :
    (({ entry5after1 with state := .exclusive, holders := 0x0002#16, generation := 20#16, waiters := [{ station := 6, mode := .shared, tag := 7#8 }] } : Entry).applyRelease 1).entry =
      { entry5after1 with state := .shared, holders := 0x0040#16, generation := 21#16, waiters := [] } := by decide +kernel

/-- Tables 1-7 and 1-8: a REAP of station 5 sent by station 1. -/
theorem test_table_1_8 :
    let e2 : Entry := { heldBy 5 [{ station := 1, mode := .excl, tag := 3#8 }] with generation := 40#16 }
    let e9 : Entry := { heldBy 5 [{ station := 2, mode := .excl, tag := 11#8 }] with state := .shared, holders := 0x00A0#16, generation := 12#16 }
    let e12 : Entry := { heldBy 7 [{ station := 5, mode := .excl, tag := 1#8 }, { station := 2, mode := .shared, tag := 6#8 }] with generation := 88#16 }
    let r := ((inStep.replica.setMembership 5 .present).setMembership 7 .present)
    let a := (((r.setEntry 2 e2).setEntry 9 e9).setEntry 12 e12).apply 16 1 (.reap 5#8)
    a.replica.entry 2 = { e2 with holders := 0x0002#16, waiters := [], generation := 41#16 } ∧
    a.replica.entry 9 = { e9 with holders := 0x0080#16 } ∧
    a.replica.entry 12 = { e12 with waiters := [{ station := 2, mode := .shared, tag := 6#8 }] } ∧
    a.replica.poolInUse = 2 ∧ a.replica.membership 5 = .lapsed ∧ a.replica.sequence = 8#16 ∧
    a.grants = [{ resource := 2, grant := { waiter := { station := 1, mode := .excl, tag := 3#8 }, generation := 41#16 } }] := by decide +kernel

/-- Section 10.4: the record of a claim granted too late has 50h in byte 1. -/
theorem test_too_late_record_byte : ({ doneRecord 41#8 with tooLate := true } : CompletionRecord).bytes[1]? = some 0x50#8 := by decide +kernel

/-- Table 10-6: LEN of the three SNAP_ENTRY frames when entries 9 and 14 have a waiter each. -/
theorem test_table_10_6_lengths :
    let w : Waiter := { station := 7, mode := .excl, tag := 19#8 }
    let s := withEntry (withEntry inStep 9 (heldBy 0 [w])) 14 (heldBy 0 [w])
    s.entriesBody.length = 36 ∧ ({ s with sync := { s.sync with cursor := 6 } } : State).entriesBody.length = 38 ∧
    ({ s with sync := { s.sync with cursor := 12 } } : State).entriesBody.length = 26 := by decide +kernel

/-! ### One step of each command -/

theorem test_hardwareReset : after (exec (.hardwareReset 9#4) inStep) (fun t => t.ctl.number == 9 && t.ctl.state == .offline && t.replica == Replica.empty) = true := by
  decide +kernel
theorem test_readStatus : after (exec (.readStatus (.clocked 30)) inStep) (fun t => t.port.sdo.length == 31 && t.port.sdo.take 5 == [0x24#8, 4#8, 3#8, 0#8, 7#8]) = true := by
  decide +kernel
theorem test_readEntry : after (exec (.readEntry 5#8 (.clocked 40)) (withEntry inStep 5 (heldBy 1 []))) (fun t =>
    t.port.sdo.take 10 == [0x24#8, 0#8, 1#8, 5#8, 0x40#8, 0#8, 2#8, 0#8, 9#8, 0#8]) = true := by decide +kernel
theorem test_readRoster : after (exec (.readRoster (.clocked 7)) inStep) (fun t => t.port.sdo == [0x24#8, 1#8, 0x15#8, 0#8, 0#8, 0#8, 0#8, 7#8]) = true := by decide +kernel
theorem test_take : after (exec (.take (.clocked 9)) { inStep with req := { contexts := [], queue := [doneRecord 4#8] } }) (fun t =>
    t.port.sdo == [0x64#8, 1#8, 4#8, 0x40#8, 1#8, 5#8, 0#8, 1#8, 0#8, 2#8] && t.req.queue.length == 1) = true := by decide +kernel
theorem test_takeRecordRemoval : after (exec .takeRecordRemoval { inStep with
    req := { contexts := [claimOf5 4#8 .done .none .stopped], queue := [doneRecord 4#8] }, port := { inStep.port with capture := some (doneRecord 4#8) } })
    (fun t => t.req == RequestUnit.reset) = true := by decide +kernel
theorem test_submit : after (exec (.submit { kind := 1#8, mode := 0#8, resource := 5#8, tag := 4#8, waitLimit := 100#16, unused := 0#16 } (.clocked 1)) inStep) (fun t =>
    t.req.contexts == [claimOf5 4#8 .queuedLocal .none (.running 100000)] && t.cont.sendList.length == 1) = true := by decide +kernel
theorem test_cancel : after (exec (.cancel 4#8 (.clocked 1)) (withContext inStep (claimOf5 4#8 .contending .none .stopped) (some .claim))) (fun t =>
    t.req.queue.map CompletionRecord.result == [.cancelled] && t.cont.sendList == []) = true := by decide +kernel
theorem test_clearFlags : after (exec (.clearFlags 4#16 (.clocked 1)) { inStep with port := { inStep.port with flags := 6#16 } }) (fun t => t.port.flags == 2#16) = true := by
  decide +kernel
theorem test_writeMasks : after (exec (.writeMasks 3#16 0xFF#8 (.clocked 1)) inStep) (fun t => t.port.masks == 3#16 && t.port.notice) = true := by decide +kernel
theorem test_writeConfig : after (exec (.writeConfig 194#8 1#8 [7#8] (.clocked 1)) State.reset) (fun t => t.port.config[194] == 7#8 && t.port.config[193] == 0#8) = true := by
  decide +kernel
theorem test_writeConfig_offset : after (exec (.writeConfig 194#8 2#8 [7#8, 7#8] (.clocked 1)) State.reset) (fun t => t.port.sdo.getLast? == some 8#8) = true := by
  decide +kernel
theorem test_start : after (exec (.start (.clocked 1)) { State.reset with port := { PortUnit.reset with config := block } }) (fun t =>
    t.ctl.state == .listening && t.port.locked && t.ctl.joinWait == .running 12500) = true := by decide +kernel
theorem test_portLeave : after (exec (.portLeave (.clocked 1)) (withContext inStep (claimOf5 4#8 .queuedLocal .none .stopped) (some .claim))) (fun t =>
    t.ctl.state == .leaving && t.cont.leavePending && t.req.queue.map CompletionRecord.result == [.abandoned]) = true := by decide +kernel
theorem test_rejoin : after (exec (.rejoin (.clocked 1)) (station .evicted)) (fun t => t.ctl.state == .listening) = true := by decide +kernel
theorem test_restart : after (exec (.restart (.clocked 1)) inStep) (fun t => t.ctl.state == .listening && t.replica == Replica.empty && t.port.locked) = true := by decide +kernel
theorem test_unknownTransactionCode : after (exec (.unknownTransactionCode 0x30#8 (.clocked 2)) inStep) (fun t => t.port.sdo == [0x24#8, 0xFF#8, 0xFF#8]) = true := by
  decide +kernel
theorem test_transactionCutShort : after (exec (.transactionCutShort [0x10#8, 1#8] (.clocked 0)) inStep) (fun t => t.port.sdo == [0x24#8, 0#8] && t.req == inStep.req) = true := by
  decide +kernel
theorem test_offer : after (exec .offer (withContext (idleFor 6 inStep) (claimOf5 4#8 .queuedLocal .none .stopped) (some .claim))) (fun t =>
    t.cont.offer == some { source := .entry 4#8, frame := { kind := .claim, cont := false, seq := 7#16, body := [5#8, 0x40#8, 4#8] }, phase := .arbitrating } &&
    t.req.contexts.map Context.state == [.contending]) = true := by decide +kernel
theorem test_offer_waits_for_start_gap :
    after (exec .offer (withContext (idleFor 5 inStep) (claimOf5 4#8 .queuedLocal .none .stopped) (some .claim)))
      (fun t => t == withContext (idleFor 5 inStep) (claimOf5 4#8 .queuedLocal .none .stopped) (some .claim)) = true := by decide +kernel
theorem test_arbitrationLost : after (exec (.arbitrationLost 4) (offering inStep .arbitrating .heartbeat .heartbeat false [])) (fun t =>
    t.cont.offer == none && t.line.rx == .filling [false, true, false, false, false]) = true := by decide +kernel
theorem test_no_loss_where_dominant_was_driven :
    after (exec (.arbitrationLost 3) (offering inStep .arbitrating .heartbeat .heartbeat false [])) (fun t => t == offering inStep .arbitrating .heartbeat .heartbeat false []) = true := by decide +kernel
theorem test_arbitrationPassed : after (exec .arbitrationPassed (offering (withContext inStep (claimOf5 4#8 .contending .none .stopped) (some .claim))
    .arbitrating (.entry 4#8) .claim false [5#8, 0x40#8, 4#8])) (fun t => t.req.contexts.map Context.state == [.transmitting] &&
    t.line.rx == .filling [true, true, false, false, true, true]) = true := by decide +kernel
theorem test_bitError : after (exec (.bitError 6) (offering (withContext inStep (claimOf5 4#8 .transmitting .none .stopped) (some .claim))
    .sending (.entry 4#8) .claim false [5#8, 0x40#8, 4#8])) (fun t =>
    t.cont.sendList.map SendEntry.attempts == [1] && t.req.contexts.map Context.state == [.contending] && t.cont.offer == none) = true := by decide +kernel
theorem test_no_bit_error_where_dominant_was_driven :
    after (exec (.bitError 6) (offering inStep .sending .heartbeat .heartbeat false [])) (fun t => t == offering inStep .sending .heartbeat .heartbeat false []) = true := by decide +kernel
theorem test_no_bit_error_past_check :
    after (exec (.bitError 49) (offering inStep .sending .heartbeat .heartbeat false [])) (fun t => t == offering inStep .sending .heartbeat .heartbeat false []) = true := by decide +kernel
theorem test_join_founds : after (exec (.join .own silentLine) (offering (station .joining) .sending .join .join false [0x12#8, 0x34#8, 0#8, 0#8])) (fun t =>
    t.ctl.state == .inStep && t.replica.sequence == 1#16 && t.port.flag .founded) = true := by decide +kernel
theorem test_join_admits : after (exec (.join (.heard (headOfStation 4 0xFFFF#16) { digest := 0x1234#16, nonce := 0#16 }) agreeing) inStep) (fun t =>
    t.replica.present 4 && t.port.flag .peerJoined && t.lease.remaining[4] == 25000) = true := by decide +kernel
theorem test_leave : after (exec (.leave (.heard (headOfStation 1 7#16) ()) agreeing) (withEntry inStep 5 (heldBy 1 []))) (fun t =>
    t.replica.membership 1 == .absent && (t.replica.entry 5).state == .free) = true := by decide +kernel
theorem test_heartbeat : after (exec (.heartbeat .own agreeing) (offering inStep .sending .heartbeat .heartbeat false [])) (fun t =>
    t.replica.sequence == 8#16 && t.lease.heartbeat == .running 6250) = true := by decide +kernel
theorem test_reap : after (exec (.reap (.heard (headOfStation 1 7#16) 2#8) agreeing) inStep) (fun t =>
    t.replica.membership 2 == .lapsed && t.port.flag .peerLapsed) = true := by decide +kernel
theorem test_claim : after (exec (.claim (.heard (headOfStation 1 7#16) (claimBody 0x40#8)) agreeing) inStep) (fun t =>
    (t.replica.entry 5).holders == 2#16 && t.replica.sequence == 8#16 && t.line.answer == some .agree) = true := by decide +kernel
theorem test_claim_disagreed : after (exec (.claim (.heard (headOfStation 1 9#16) (claimBody 0x40#8)) agreeing) inStep) (fun t =>
    t.ctl.state == .outOfStep && t.port.flag .lostStep && t.replica.sequence == 7#16) = true := by decide +kernel
theorem test_release : after (exec (.release (.heard (headOfStation 1 7#16) 5#8) agreeing)
    (withContext (withEntry inStep 5 (heldBy 1 [{ station := 3, mode := .excl, tag := 4#8 }])) (claimOf5 4#8 .waiting .none .stopped) none)) (fun t =>
    t.req.queue == [{ doneRecord 4#8 with generation := 10#16, sequence := 8#16 }] && (t.replica.entry 5).holders == 8#16) = true := by decide +kernel
theorem test_withdraw : after (exec (.withdraw (.heard (headOfStation 2 7#16) 5#8) agreeing)
    (withEntry inStep 5 (heldBy 1 [{ station := 2, mode := .excl, tag := 4#8 }]))) (fun t =>
    t.replica.poolInUse == 0 && (t.replica.entry 5).waiters == []) = true := by decide +kernel
theorem test_downgrade : after (exec (.downgrade (.heard (headOfStation 1 7#16) 5#8) agreeing) (withEntry inStep 5 (heldBy 1 []))) (fun t =>
    (t.replica.entry 5).state == .shared && (t.replica.entry 5).generation == 9#16) = true := by decide +kernel
theorem test_syncReq : after (exec (.syncReq (.heard (headOfStation 1 0xFFFF#16) ()) agreeing) inStep) (fun t =>
    t.cont.trainIntent && t.sync.phase == .head) = true := by decide +kernel
theorem test_snapHead : after (exec (.snapHead (.heard { station := 1, cont := true, seq := 0xFFFF#16 } inStep.headFields.bytes) agreeing) outOfStep) (fun t =>
    t.cont.hold == some 1 && t.sync.shadow.any fun sh => sh.trainSequence == 7#16 && sh.source == 1) = true := by decide +kernel

/-- An OPEN shadow of a train from station 1, with the first n claim states of the founded table. -/
def shadowOf (n : Nat) : Shadow :=
  { source := 1, trainSequence := 7#16, roster := inStep.replica.roster, poolInUse := 0, headBody := inStep.headFields.bytes,
    claims := List.replicate n ClaimState.free }

/-- Station 3 OUT_OF_STEP under the hold of station 1, taking its train. -/
def taking (n : Nat) : State := { outOfStep with sync := { outOfStep.sync with shadow := some (shadowOf n) }, cont := { outOfStep.cont with hold := some 1 } }

theorem test_snapEntry : after (exec (.snapEntry (.heard { station := 1, cont := true, seq := 0xFFFF#16 } (ClaimState.free.recordBytes 2#8)) agreeing) (taking 2))
    (fun t => t.sync.shadow.any fun sh => sh.claims.length == 3) = true := by decide +kernel
theorem test_snapTail : after (exec (.snapTail (.heard (headOfStation 1 0xFFFF#16) 0#16) agreeing) (taking 15)) (fun t =>
    t.ctl.state == .outOfStep && t.sync.shadow == none && t.cont.syncReqPending && t.cont.hold == none) = true := by decide +kernel
theorem test_installation : after (.next ((taking 16).install (shadowOf 16))) (fun t =>
    t.ctl.state == .inStep && t.port.flag .regained && t.replica.sequence == 7#16 && t.replica.valid && t.sync.shadow == none &&
      t.lease.remaining[1] == 25000 && t.lease.remaining[3] == 0) = true := by decide +kernel

/-- A frame of station 1 as the receive buffer holds it. -/
def heldFrame : ReceivedFrame := { fields := heardRaw .release (headOfStation 1 7#16) [5#8], answers := agreeing, sent := false }

/-- Station 3 IN_STEP with that frame HELD. -/
def holding : State := { inStep with line := { inStep.line with rx := .held heldFrame } }

/-- A shadow whose entry 5 station 3 holds, whose entry 6 it waits for, and whose entry 7 names it nowhere. -/
def shadowNaming3 : Shadow :=
  { shadowOf 16 with poolInUse := 1, claims := List.replicate 5 ClaimState.free ++
      [(heldBy 3 []).claimState, (heldBy 1 [{ station := 3, mode := .excl, tag := 2#8 }]).claimState] ++ List.replicate 9 ClaimState.free }

/-- A CLAIM context of a resource. -/
def claimOfRes (resource tag : Byte) (st : ContextState) : Context := { claimOf5 tag st .none .stopped with resource := resource }

theorem test_reconciliation :
    let s := withContext (withContext (withContext (withContext (taking 16) (claimOfRes 5#8 1#8 .waiting) none) (claimOfRes 6#8 2#8 .waiting) none)
      (claimOfRes 7#8 3#8 .withdrawing) (some .withdraw)) (claimOfRes 5#8 4#8 .withdrawing) (some .withdraw)
    after (.next (s.install shadowNaming3)) (fun t =>
      t.req.queue.map (fun r => (r.tag, r.result, r.tooLate, r.generation, r.sequence)) ==
        [(1#8, .granted, false, 9#16, 7#16), (3#8, .evicted, false, 0#16, 7#16), (4#8, .granted, true, 9#16, 7#16)] &&
      t.req.contexts.map Context.state == [.done, .waiting, .done, .done] && t.cont.sendList == []) = true := by decide +kernel

theorem test_formatError : after (exec (.formatError { heardRaw .release (headOfStation 1 7#16) [5#8] with check := 0#16 }) inStep) (fun t =>
    t.ctl.rejectCount == 1 && t.line.answer == some .reject) = true := by decide +kernel
theorem test_truncation : after (exec (.truncation [true, false]) inStep) (fun t => t.ctl.rejectCount == 0 && t.line.answer == some .reject) = true := by decide +kernel
theorem test_truncation_in_check_leaves_check_out :
    after (exec (.truncation ((dataSlots (heardRaw .leave (headOfStation 1 7#16) [])).take 40)) inStep) (fun t =>
      t.line.checkAcc == frameCheck (heardRaw .leave (headOfStation 1 7#16) [])) = true := by decide +kernel
theorem test_no_truncation_after_the_last_check_slot :
    after (exec (.truncation (dataSlots (heardRaw .leave (headOfStation 1 7#16) []))) inStep) (fun t => t == inStep) = true ∧
    after (exec (.truncation ((dataSlots (heardRaw .leave (headOfStation 1 7#16) [])).take 48)) inStep) (fun t => t.line.answer == some .reject) = true := by
  decide +kernel
theorem test_truncated_overrun_is_answered :
    after (exec (.truncation [true]) { outOfStep with line := { outOfStep.line with rx := .held heldFrame, overrun := true } }) (fun t =>
      t.line.answer == some .reject && !t.line.overrun && t.ctl.rejectCount == 0) = true := by decide +kernel
theorem test_receiveOverrun : after (exec (.receiveOverrun (heardRaw .release (headOfStation 1 7#16) [5#8])) holding) (fun t =>
    t.ctl.rejectCount == 1 && t.line.rx == .empty && !t.line.overrun) = true := by decide +kernel
theorem test_held_frame_is_delivered_within_start_gap :
    after (step { holding with line := { holding.line with idleCount := 4 } }) (fun t => t.line.rx == .held heldFrame) = true ∧
    after (step { holding with line := { holding.line with idleCount := 5 } }) (fun t => t.line.rx == .empty) = true ∧
    after (exec .roundEnd holding) (fun t => t.line.rx == .empty) = true := by decide +kernel
theorem test_roundEnd : after (exec .roundEnd { inStep with cont := { inStep.cont with turnUsed := true } }) (fun t => !t.cont.turnUsed && t.line.idleCount == 12) = true := by
  decide +kernel
theorem test_holdTimeout : after (exec .holdTimeout (taking 2)) (fun t => t.cont.hold == none && t.sync.shadow == none && t.port.flag .trainLost) = true := by decide +kernel
theorem test_leaseExpired : after (exec (.leaseExpired 1) { inStep with lease := { inStep.lease with remaining := inStep.lease.remaining.set 1 16 } }) (fun t =>
    t.lease.reapSet == 2#16 && t.lease.remaining[1] == 0) = true := by decide +kernel
theorem test_heartbeatDue : after (exec .heartbeatDue { inStep with lease := { inStep.lease with heartbeat := .running 1 } }) (fun t =>
    t.cont.heartbeatDue && t.lease.heartbeat == .stopped) = true := by decide +kernel
theorem test_retryTimerExpiry : after (exec .retryTimerExpiry { outOfStep with sync := { outOfStep.sync with retry := .running 1 } }) (fun t => t.cont.syncReqPending) = true := by
  decide +kernel
theorem test_joinWaitElapsed : after (exec .joinWaitElapsed { station .listening with ctl := { (station .listening).ctl with joinWait := .running 1 } }) (fun t =>
    t.ctl.state == .joining && t.cont.joinPending) = true := by decide +kernel
theorem test_waitTimerExpiry : after (exec (.waitTimerExpiry 4#8) (withContext inStep (claimOf5 4#8 .waiting .none (.running 1)) none)) (fun t =>
    t.req.contexts.map Context.state == [.withdrawing] && t.cont.sendList.map SendEntry.kind == [.withdraw]) = true := by decide +kernel
/-- Station 3 JOINING with its JOIN's count at 16. -/
def joinSpent : State :=
  let s := station .joining
  { s with cont := { s.cont with joinPending := true, attempts := { AttemptCounts.zero with join := 16 } } }

theorem test_abandon : after (exec .abandon joinSpent) (fun t => t.ctl.state == .listening && t.port.flag .mediumFault) = true := by decide +kernel
theorem test_enterMuted : after (exec .enterMuted { inStep with ctl := { inStep.ctl with rejectCount := 16 } }) (fun t =>
    t.ctl.state == .muted && !t.replica.valid && t.port.flag .muted) = true := by decide +kernel
theorem test_recovery : after (exec .recovery { station .muted with ctl := { (station .muted).ctl with cleanCount := 64, rejectCount := 16 } }) (fun t =>
    t.ctl.state == .outOfStep && t.cont.syncReqPending) = true := by decide +kernel
theorem test_glitch : after (exec (.glitch 1) (idleFor 9 inStep)) (fun t => t.line.idleCount == 0 && t.line.rx == .empty) = true := by decide +kernel
theorem test_start_mark : after (exec (.glitch 3) (idleFor 9 inStep)) (fun t => t.line == { idleCount := 0, rx := .filling [], checkAcc := 0xFFFF#16, answer := none, overrun := false, dominantLeft := 0 }) = true := by
  decide +kernel
theorem test_start_mark_in_a_held_buffer : after (exec (.glitch 2) holding) (fun t => t.line.overrun && t.line.rx == .held heldFrame && t.frameInProgress && t.line.checkAcc == 0xFFFF#16) = true := by
  decide +kernel

/-- The line of station 3 while a fault holds it dominant for some more slots. -/
def heldDominant (slots : Nat) (s : State) : State := { s with line := { s.line with dominantLeft := slots } }

/-- A dominant period of nine slots, taken for a frame and truncated, leaves a line held for three slots more; the idle count rises again only
after them, and no round ends and no hold times out before. -/
theorem test_line_held_dominant :
    after (exec (.glitch 9) (idleFor 9 inStep)) (fun t => after (exec (.truncation [false]) t) fun u => u.line.dominantLeft == 3 && u.line.idleCount == 0) = true ∧
    after (step (heldDominant 3 inStep)) (fun t => t.line.dominantLeft == 2 && t.line.idleCount == 0) = true ∧
    after (step (heldDominant 1 inStep)) (fun t => after (step { t with pending := [] }) fun u => u.line.dominantLeft == 0 && u.line.idleCount == 1) = true ∧
    after (exec .roundEnd (heldDominant 1 inStep)) (fun t => t == heldDominant 1 inStep) = true ∧
    after (exec .holdTimeout (heldDominant 1 (taking 2))) (fun t => t == heldDominant 1 (taking 2)) = true := by decide +kernel

/-- A dominant period from within a frame outlives it; one told while the station is OFFLINE is still there after START; an edge ends it. -/
theorem test_dominant_period_outlives_its_frame :
    after (exec (.glitch 10) (offering { inStep with line := inStep.line.startMark } .sending .heartbeat .heartbeat false [])) (fun t =>
      after (exec (.heartbeat .own rejecting) t) fun u => u.line.dominantLeft == 7 && u.cont.offer == none) = true ∧
    after (exec (.glitch 10) { inStep with line := inStep.line.startMark }) (fun t =>
      after (exec (.truncation [true]) t) fun u => u.line.dominantLeft == 7) = true ∧
    after (exec (.glitch 4) { State.reset with port := { PortUnit.reset with config := block } }) (fun t =>
      after (exec (.start (.clocked 1)) t) fun u => u.line.dominantLeft == 4 && u.ctl.state == .listening) = true ∧
    after (exec (.glitch 0) (heldDominant 5 inStep)) (fun t => t.line.dominantLeft == 0) = true := by decide +kernel

/-! ### Transactions by their bytes -/

theorem test_header_is_sampled_at_csn_fall :
    after (exec (.readStatus .csnFalls) inStep) (fun t => t.port.selected == some 0x24#8 && t.port.sdo == []) = true ∧
    after (exec (.readStatus (.clocked 1)) { inStep with port := { inStep.port with selected := some 0x25#8 } }) (fun t =>
      t.port.sdo == [0x25#8, 4#8] && t.port.selected == none) = true := by decide +kernel
theorem test_bytes_beyond_the_length_get_zeros : after (exec (.readRoster (.clocked 9)) inStep) (fun t => t.port.sdo.drop 6 == [0#8, 7#8, 0#8, 0#8]) = true := by
  decide +kernel
theorem test_take_cut_before_its_last_byte_removes_nothing :
    after (exec (.take (.clocked 8)) { inStep with req := { contexts := [], queue := [doneRecord 4#8] } }) (fun t => t.port.capture == none && t.port.sdo.length == 9) = true := by
  decide +kernel
theorem test_transactionOf :
    transactionOf [0x02#8, 5#8, 0#8, 0#8] = .readEntry 5#8 (.clocked 2) ∧ transactionOf [0x12#8, 0x01#8, 0x02#8, 0#8] = .clearFlags 0x0102#16 (.clocked 1) ∧
    transactionOf [0x10#8, 1#8, 0#8, 5#8, 4#8, 0#8, 100#8, 0#8, 0#8, 0#8] =
      .submit { kind := 1#8, mode := 0#8, resource := 5#8, tag := 4#8, waitLimit := 100#16, unused := 0#16 } (.clocked 1) ∧
    transactionOf [0x20#8, 9#8, 1#8, 7#8, 0#8] = .writeConfig 9#8 1#8 [7#8] (.clocked 1) ∧
    transactionOf [0x20#8, 9#8, 2#8, 7#8] = .transactionCutShort [0x20#8, 9#8, 2#8, 7#8] (.clocked 0) ∧
    transactionOf [0x20#8, 9#8] = .transactionCutShort [0x20#8, 9#8] (.clocked 0) ∧
    transactionOf [0x30#8, 0#8, 0#8] = .unknownTransactionCode 0x30#8 (.clocked 2) ∧ transactionOf [] = .transactionCutShort [] (.clocked 0) := by decide +kernel

/-! ### Table words and the queue -/

/-- No row of the table gives bits, so no word spells a command and nothing is put in front. -/
theorem test_no_word_spells_a_command : decodeTableWord 8 1 = none ∧ (State.reset.withFetchWord 8 1).pending = [] := by decide +kernel

/-- One slot of an idle line at START_GAP offers the frame that is ready. -/
theorem test_slot_queues_the_offer : after (step { inStep with line := { inStep.line with idleCount := 5 } }) (fun t => t.pending == [.offer] && t.line.idleCount == 6) = true := by
  decide +kernel

/-! ### Witnesses: the hypotheses of each statement can be met together -/

/-- Station 3 with contexts of tags 1 to n in one state. -/
def withContexts (s : State) (n : Nat) (st : ContextState) : State :=
  { s with req := { s.req with contexts := (List.range n).map fun i => claimOf5 (BitVec.ofNat 8 (i + 1)) st .none .stopped } }

/-- Station 3 IN_STEP, its CLAIM of resource 5 under tag 4 past arbitration, its context TRANSMITTING with a cause. -/
def sendingClaim (cause : Cause) : State :=
  offering (withContext inStep (claimOf5 4#8 .transmitting cause .stopped) (some .claim)) .sending (.entry 4#8) .claim false [5#8, 0x40#8, 4#8]

/-- The same with entry 5 held by station 1, so that the claim is queued. -/
def sendingClaimOfHeld (cause : Cause) : State := withEntry (sendingClaim cause) 5 (heldBy 1 [])

/-- Station 3 IN_STEP, its WITHDRAW under tag 4 past arbitration. -/
def sendingWithdraw : State :=
  offering (withContext (withEntry inStep 5 (heldBy 1 [{ station := 3, mode := .excl, tag := 4#8 }])) (claimOf5 4#8 .withdrawing .cancelled .stopped) (some .withdraw))
    .sending (.entry 4#8) .withdraw false [5#8]

/-- Station 3 with an own frame of a kind past arbitration. -/
def sending (s : State) (src : OfferSource) (k : FrameKind) (cont : Bool) (body : List Byte) : State := offering s .sending src k cont body

/-- A CLAIM frame of a station, as the statements read it. -/
def claimFrame (x : Station) (seq : Word) (a : Answers) : HeardFrame :=
  { kind := .claim, head := headOfStation x seq, bytes := [5#8, 0x40#8, 9#8], answers := a }

/-- The CLAIM command of the same frame. -/
def claimCommand (x : Station) (seq : Word) (a : Answers) : Instr := .claim (.heard (headOfStation x seq) (claimBody 0x40#8)) a

theorem witness_EmptyQueueStepIsOneTurnOfThePart :
    (State.reset.pending = [] ∧ State.reset.ctl.state = .offline) ∧
    (({ inStep with ctl := { inStep.ctl with rejectCount := 16 } } : State).pending = [] ∧
      ({ inStep with ctl := { inStep.ctl with rejectCount := 16 } } : State).dueSteps ≠ []) ∧
    (inStep.pending = [] ∧ inStep.ctl.state ≠ .offline ∧ inStep.dueSteps = []) ∧
    (Timer.running 17).afterSlot 16 (.running 1) ∧ (Timer.running 16).afterSlot 16 (.running 16) ∧ (Timer.running 16).dueIn 16 :=
  ⟨by decide +kernel, by decide +kernel, by decide +kernel, ⟨fun h => (by cases h), fun r h => (by cases h; decide)⟩,
    ⟨fun h => (by cases h), fun r h => (by cases h; decide)⟩, ⟨16, rfl, by decide⟩⟩

theorem witness_ReplicaIsEmptyAfterResetRestartAndDiscard :
    inStep.ctl.state ≠ .offline ∧
    ∃ t, exec (.bitError 7) (sending (station .joining) .join .join false []) = .next t ∧
      (sending (station .joining) .join .join false []).ctl.state.ended = false ∧ t.ctl.state.ended = true :=
  ⟨by decide +kernel, _, rfl, by decide +kernel, by decide +kernel⟩

theorem witness_StationNumberIsTheStrapsUntilTheNextReset :
    (∀ straps, Instr.readStatus (.clocked 30) ≠ .hardwareReset straps) ∧ (∃ t, exec (.readStatus (.clocked 30)) inStep = .next t) ∧ inStep.pending = [] :=
  ⟨(fun _ h => by cases h), ⟨_, rfl⟩, by decide +kernel⟩

theorem witness_PortStateAfterEachReset : inStep.ctl.state ≠ .offline ∧ (station .refused).ctl.state.ended = true := by decide +kernel

theorem witness_ReadStatusReturnsTheThirtyBytes :
    (withContexts inStep 8 .waiting).req.contexts[0]? = some (claimOf5 1#8 .waiting .none .stopped) ∧
    (withContexts inStep 8 .waiting).req.contexts[7]? = some (claimOf5 8#8 .waiting .none .stopped) ∧
    (withContexts inStep 7 .waiting).req.contexts.length ≤ 7 := by decide +kernel

theorem witness_ReadEntryAndRosterReturnTheReplica :
    (0#8).toNat < inStep.tableSize ∧ (15#8).toNat < inStep.tableSize ∧ (inStep.replica.entry 15).waiters.length ≤ 15 ∧
    inStep.tableSize ≤ (16#8).toNat ∧ inStep.tableSize ≤ (255#8).toNat := by decide +kernel

/-- Station 3 with a DONE context under tag 4, its record waiting and captured by a TAKE. -/
def taken : State :=
  { inStep with req := { contexts := [claimOf5 4#8 .done .none .stopped, claimOf5 5#8 .waiting .none .stopped], queue := [doneRecord 4#8] },
                port := { inStep.port with capture := some (doneRecord 4#8) } }

theorem witness_TakeReturnsTheHeadAndItsEndRemovesIt :
    inStep.req.queue = [] ∧ taken.req.queue = [doneRecord 4#8] ∧ taken.port.capture = some (doneRecord 4#8) ∧ taken.requestLaw ∧
    inStep.port.capture = none :=
  ⟨by decide +kernel, by decide +kernel, by decide +kernel,
    ⟨by decide +kernel, by decide +kernel, by decide +kernel, fun r h => by cases h; decide +kernel⟩, by decide +kernel⟩

/-- A request record of resource 15 under tag 9. -/
def requestOf (kind mode resource tag : Byte) : RequestRecord :=
  { kind := kind, mode := mode, resource := resource, tag := tag, waitLimit := 0xFFFF#16, unused := 0#16 }

theorem witness_SubmitOpensAContextOrReturnsTheFirstFailingCheck :
    (inStep.ctl.state = .inStep ∧ outOfStep.ctl.state = .outOfStep ∧ requestKind 1#8 = some .claim ∧ (requestMode 1#8).isSome = true ∧
      (15#8).toNat < inStep.tableSize ∧ (∀ c ∈ (withContexts inStep 7 .waiting).req.contexts, c.tag ≠ 9#8) ∧
      (withContexts inStep 7 .waiting).req.contexts.length < 8) ∧
    (requestKind 3#8 = some .downgrade) ∧
    (¬ (leaving.ctl.state = .inStep ∨ leaving.ctl.state = .outOfStep ∨ leaving.ctl.state = .syncing ∨ leaving.ctl.state = .muted)) ∧
    (requestKind 4#8 = none ∧ requestKind 0#8 = none ∧ requestMode 2#8 = none) ∧ inStep.tableSize ≤ (16#8).toNat ∧
    (∃ c ∈ (withContexts inStep 7 .waiting).req.contexts, c.tag = (requestOf 1#8 0#8 15#8 7#8).tag) ∧
    (8 ≤ (withContexts inStep 8 .waiting).req.contexts.length ∧ ∀ c ∈ (withContexts inStep 8 .waiting).req.contexts, c.tag ≠ 9#8) := by decide +kernel

/-- Station 3 with its CLAIM's context CONTENDING. -/
def readyToLose : State := withContext inStep (claimOf5 4#8 .contending .none (.running 5)) (some .claim)

theorem witness_CancelAndExpiryActByTheContextState :
    ((withContext inStep (claimOf5 4#8 .queuedLocal .none (.running 5)) (some .claim)).requestLaw ∧
      (withContext inStep (claimOf5 4#8 .waiting .none (.running 5)) none).requestLaw ∧
      (withContext inStep (claimOf5 4#8 .transmitting .none (.running 5)) (some .claim)).requestLaw ∧
      (withContext inStep (claimOf5 4#8 .transmitting .timedOut .stopped) (some .claim)).requestLaw) ∧
    (∀ c : Context, (withContext inStep (claimOf5 4#8 .withdrawing .cancelled .stopped) none).req.find 4#8 = some c → c.state = .withdrawing) ∧
    ((offering readyToLose .arbitrating (.entry 4#8) .claim false []).requestLaw ∧ (offering readyToLose .sending (.entry 4#8) .claim false []).requestLaw) ∧
    (∀ c : Context, inStep.req.find 4#8 = some c → c.state = .done) :=
  ⟨⟨requestLaw_of (by decide +kernel), requestLaw_of (by decide +kernel), requestLaw_of (by decide +kernel), requestLaw_of (by decide +kernel)⟩,
    fun c h => by cases h; rfl, ⟨requestLaw_of (by decide +kernel), requestLaw_of (by decide +kernel)⟩, fun c h => by cases h⟩

theorem witness_WriteConfigWritesTheBlockWhileOffline :
    ([7#8] : List Byte).length = (1#8).toNat ∧ State.reset.ctl.state = .offline ∧ (194#8).toNat + (1#8).toNat ≤ 195 ∧
    (List.replicate 195 0#8 : List Byte).length = (195#8).toNat ∧ (0#8).toNat + (195#8).toNat ≤ 195 ∧
    (0#8).toNat = 0 ∧ 195 < (194#8).toNat + (2#8).toNat ∧ inStep.ctl.state ≠ .offline ∧ 0 < (1#8).toNat := by decide +kernel

/-- OFFLINE with the block written, whose byte at an offset is replaced. -/
def unlockedWith (i : Fin 195) (b : Byte) : State := { State.reset with port := { PortUnit.reset with config := block.set i b } }

theorem witness_StartLocksAGoodBlockAndListens :
    ((unlockedWith 0 3#8).port.configGood = true ∧ (unlockedWith 1 7#8).port.configGood = true ∧ (unlockedWith 2 2#8).port.configGood = true ∧
      (unlockedWith 53 2#8).port.configGood = true) ∧
    ((unlockedWith 0 4#8).port.configGood = false ∧ (unlockedWith 1 8#8).port.configGood = false ∧ (unlockedWith 2 3#8).port.configGood = false ∧
      (unlockedWith 50 2#8).port.configGood = false) ∧ inStep.ctl.state ≠ .offline := by decide +kernel

theorem witness_PortLeaveEntersLeaving :
    inStep.ctl.state = .inStep ∧ outOfStep.ctl.state ≠ .inStep ∧
    ((sendingClaim .none).ctl.state = .inStep ∧ (sendingClaim .none).cont.offer.map Offer.phase = some .sending) ∧
    ((offering readyToLose .arbitrating (.entry 4#8) .claim false []).cont.offer.map Offer.phase = some .arbitrating) ∧
    ((offering inStep .arbitrating (.reap 1) .reap false [1#8]).cont.offer.map Offer.source = some (.reap 1)) ∧
    ((offering inStep .arbitrating .syncReq .syncReq false []).cont.offer.map Offer.source = some .syncReq) ∧ inStep.cont.offer = none := by decide +kernel

theorem witness_RejoinAndRestartListenAgain :
    (station .departed).ctl.state = .departed ∧ (station .evicted).ctl.state = .evicted ∧ (station .refused).ctl.state = .refused ∧
    ¬ (inStep.ctl.state = .departed ∨ inStep.ctl.state = .evicted ∨ inStep.ctl.state = .refused) ∧ State.reset.ctl.state = .offline ∧
    (station .evicted).cont.offer = none ∧
    (offering (station .evicted) .sending .heartbeat .heartbeat false []).cont.offer.map Offer.source = some .heartbeat ∧
    (offering (station .evicted) .arbitrating .join .join false []).cont.offer.map Offer.source = some .join := by decide +kernel

theorem witness_FirstByteSpellsTheTransactionAndUntakenOnesChangeNothing :
    (0x30#8 ∉ [0x01#8, 0x02#8, 0x03#8, 0x04#8, 0x10#8, 0x11#8, 0x12#8, 0x13#8, 0x20#8, 0x21#8, 0x22#8, 0x23#8, 0x24#8]) ∧
    cutShort [0x10#8] = true ∧ cutShort [0x10#8, 0#8, 0#8, 0#8, 0#8, 0#8, 0#8, 0#8] = true ∧ cutShort [0x20#8, 0#8, 2#8, 0#8] = true ∧ cutShort [] = true ∧
    ((List.replicate 255 0#8 : List Byte).length = (255#8).toNat) ∧ Instr.wellFormed (.take (.clocked 9)) = true ∧
    Instr.atCsnFall (.take (.clocked 9)) = some (.take .csnFalls) := by decide +kernel

/-- Station 3 ready to send its CLAIM. -/
def readyClaim : State := withContext (idleFor 6 inStep) (claimOf5 4#8 .queuedLocal .none .stopped) (some .claim)

theorem witness_OfferBeginsTheChosenFrame :
    (readyClaim.ctl.state ≠ .offline ∧ readyClaim.cont.offer = none ∧ readyClaim.line.rx.isFilling = false ∧ readyClaim.line.overrun = false ∧ 6 ≤ readyClaim.line.idleCount ∧
      readyClaim.cont.hold = none ∧
      readyClaim.cont.silent = false ∧
      readyClaim.chooseOffer = some (.entry 4#8, { kind := .claim, cont := false, seq := 7#16, body := [5#8, 0x40#8, 4#8] })) ∧
    ({ station .joining with cont := { (station .joining).cont with joinPending := true } } : State).chooseOffer.map Prod.fst = some .join ∧
    inStep.chooseOffer = none ∧ (idleFor 5 readyClaim).line.idleCount < 6 ∧ ({ readyClaim with cont := { readyClaim.cont with hold := some 1 } } : State).cont.hold ≠ none := by
  refine ⟨by decide +kernel, rfl, by decide +kernel, by decide +kernel⟩

/-- Station 3 IN_STEP with some duties of the contention unit. -/
def duties (f : ContentionUnit → ContentionUnit) (reap : StationSet) : State :=
  { inStep with cont := f inStep.cont, lease := { inStep.lease with reapSet := reap } }

theorem witness_ChosenFrameIsAllowedAndInOrder :
    (leaving.chooseOffer.map fun o => o.2.kind) = some .leave ∧
    ((({ outOfStep with cont := { outOfStep.cont with syncReqPending := true } } : State).chooseOffer.map fun o => o.2.kind) = some .syncReq) ∧
    ((({ duties (fun c => { c with trainIntent := true }) 0#16 with sync := { inStep.sync with phase := .head } } : State).chooseOffer.map fun o => o.2.kind) = some .snapHead) ∧
    ((duties (fun c => { c with heartbeatDue := true }) 0x0006#16).chooseOffer.map fun o => (o.1, o.2.body)) = some (.reap 1, [1#8]) ∧
    ((duties (fun c => { c with heartbeatDue := true, turnUsed := true }) 0#16).chooseOffer.map fun o => o.2.kind) = some .heartbeat ∧
    ((({ duties (fun c => { c with hold := some 3 }) 0#16 with sync := { inStep.sync with phase := .tail } } : State).chooseOffer.map fun o => o.2.kind) = some .snapTail) ∧
    (readyClaim.chooseOffer.map fun o => o.2.kind) = some .claim := by decide +kernel

/-- Station 3 IN_STEP with a RELEASE whose count is at 16, a WITHDRAW at 15 and a CLAIM in its send list. -/
def threeEntries : State :=
  let e := fun (k : SendKind) (tag : Byte) (n : Nat) => ({ kind := k, tag := tag, resource := 5#8, mode := .shared, mayWait := true, attempts := n, carried := false } : SendEntry)
  { inStep with cont := { inStep.cont with sendList := [e .claim 1#8 0, e .release 2#8 16, e .withdraw 3#8 15] } }

theorem witness_rows_of_the_order_of_offer :
    (inStep.noTrainFrame ∧ inStep.noClassOne) ∧
    (duties (fun c => { c with heartbeatDue := true }) 0x0006#16).lowestReap 1 ∧
    (duties (fun c => { c with attempts := { c.attempts with reap := 16, reapTarget := some 1 } }) 0x0002#16).noClassOne ∧
    threeEntries.oldestEntry (fun x => True ∧ x.kind ≠ .claim) { kind := .withdraw, tag := 3#8, resource := 5#8, mode := .shared, mayWait := true, attempts := 15, carried := false } ∧
    threeEntries.chooseOffer = some (.entry 3#8, threeEntries.frameOf { kind := .withdraw, tag := 3#8, resource := 5#8, mode := .shared, mayWait := true, attempts := 15, carried := false }) ∧
    (readyClaim.oldestEntry (fun x => True ∧ x.kind = .claim) { kind := .claim, tag := 4#8, resource := 5#8, mode := .excl, mayWait := true, attempts := 0, carried := false }) ∧
    (leaving.ctl.state = .leaving ∧ leaving.cont.leavePending = true ∧ ∀ e ∈ leaving.cont.sendList, e.carried = false) := by
  refine ⟨⟨Or.inr (Or.inl rfl), Or.inr ⟨rfl, Or.inl rfl⟩⟩, ⟨by decide +kernel, by decide +kernel⟩, Or.inl ⟨1, ⟨by decide +kernel, by decide +kernel⟩, rfl, by decide⟩,
    ⟨threeEntries.cont.sendList.take 2, [], rfl, ⟨trivial, by decide⟩, by decide, ?_⟩, by decide +kernel, ⟨[], [], rfl, ⟨trivial, rfl⟩, by decide, by simp⟩, by decide +kernel⟩
  simp [threeEntries]

theorem witness_ArbitrationEndsInLossOrSending :
    (offering (withContext inStep (claimOf5 4#8 .contending .none .stopped) (some .claim)) .arbitrating (.entry 4#8) .claim false []).req.find 4#8 =
      some (claimOf5 4#8 .contending .none .stopped) ∧
    (offering (withContext inStep (claimOf5 4#8 .withdrawing .cancelled .stopped) (some .withdraw)) .arbitrating (.entry 4#8) .withdraw false []).req.find 4#8 =
      some (claimOf5 4#8 .withdrawing .cancelled .stopped) ∧
    ((offering inStep .arbitrating .heartbeat .heartbeat false []).cont.offer.map Offer.phase) = some .arbitrating ∧
    ((fieldBits FrameKind.heartbeat.cls ++ fieldBits (stationBits 3))[1]? = some true ∧
      (fieldBits FrameKind.heartbeat.cls ++ fieldBits (stationBits 3))[5]? = some true ∧
      (fieldBits FrameKind.heartbeat.cls ++ fieldBits (stationBits 3))[0]? ≠ some true ∧
      (fieldBits FrameKind.heartbeat.cls ++ fieldBits (stationBits 3))[6]? ≠ some true) ∧ inStep.cont.offer = none := by decide +kernel

theorem witness_FailedAttemptsAreCountedAndApplyNothing :
    ((sendingClaim .none).requestLaw ∧ claimOf5 4#8 .transmitting .none .stopped ∈ (sendingClaim .none).req.contexts) ∧
    ((sendingClaim .cancelled).requestLaw ∧ claimOf5 4#8 .transmitting .cancelled .stopped ∈ (sendingClaim .cancelled).req.contexts) ∧
    (sendingWithdraw.requestLaw ∧ claimOf5 4#8 .withdrawing .cancelled .stopped ∈ sendingWithdraw.req.contexts) ∧
    ((sendingClaim .none).sendsKind .claim (.entry 4#8) { kind := .claim, cont := false, seq := 7#16, body := [5#8, 0x40#8, 4#8] } ∧
      Instr.ownFrame (.claim .own rejecting) = some (.claim, rejecting) ∧ rejecting.reject = true) ∧
    ((sending (station .joining) .join .join false []).sendsKind .join .join { kind := .join, cont := false, seq := 7#16, body := [] }) ∧
    ((dataSlots (({ kind := .claim, cont := false, seq := 7#16, body := [5#8, 0x40#8, 4#8] } : TxFrame).raw 3))[6]? = some true ∧
      (dataSlots (({ kind := .claim, cont := false, seq := 7#16, body := [5#8, 0x40#8, 4#8] } : TxFrame).raw 3))[10]? ≠ some true ∧
      (dataSlots (({ kind := .join, cont := false, seq := 7#16, body := [] } : TxFrame).raw 3))[7]? = some true) ∧
    ((sending inStep .heartbeat .heartbeat false []).cont.offer.map Offer.source) = some .heartbeat ∧
    ((sending inStep (.reap 1) .reap false [1#8]).sendsKind .reap (.reap 1) { kind := .reap, cont := false, seq := 7#16, body := [1#8] } ∧
      (sending outOfStep .syncReq .syncReq false []).sendsKind .syncReq .syncReq { kind := .syncReq, cont := false, seq := 7#16, body := [] } ∧
      (sending leaving .leave .leave false []).sendsKind .leave .leave { kind := .leave, cont := false, seq := 7#16, body := [] } ∧
      (sending inStep .train .snapTail false [0#8, 0#8]).sendsKind .snapTail .train { kind := .snapTail, cont := false, seq := 7#16, body := [0#8, 0#8] }) :=
  ⟨⟨requestLaw_of (by decide +kernel), by decide +kernel⟩, ⟨requestLaw_of (by decide +kernel), by decide +kernel⟩,
    ⟨requestLaw_of (by decide +kernel), by decide +kernel⟩, ⟨⟨rfl, rfl⟩, rfl, rfl⟩, ⟨rfl, rfl⟩, by decide +kernel, rfl, ⟨rfl, rfl⟩, ⟨rfl, rfl⟩, ⟨rfl, rfl⟩, rfl, rfl⟩

/-- Station 3 with one count at 16. -/
def spent (s : State) (a : AttemptCounts) : State := { s with cont := { s.cont with attempts := a } }

theorem witness_AbandonReportsToTheFrameOwner :
    inStep.abandonDue = none ∧ (spent (station .joining) { AttemptCounts.zero with join := 16 }).abandonDue = some .join ∧
    (spent leaving { AttemptCounts.zero with leave := 16 }).abandonDue = some .leave ∧
    ((withContext (spent leaving { AttemptCounts.zero with leave := 16 }) (claimOf5 4#8 .waiting .none .stopped) none).abandonDue = some .leave) ∧
    (spent inStep { AttemptCounts.zero with heartbeat := 16 }).abandonDue = some .heartbeat ∧
    (spent inStep { AttemptCounts.zero with reap := 16, reapTarget := some 1 }).abandonDue = some (.reap 1) ∧
    (spent outOfStep { AttemptCounts.zero with syncReq := 16 }).abandonDue = some .syncReq ∧
    (spent { inStep with sync := { inStep.sync with phase := .head } } { AttemptCounts.zero with train := 16 }).abandonDue = some .train ∧
    (spent { duties (fun c => { c with hold := some 3 }) 0#16 with sync := { inStep.sync with phase := .tail } } { AttemptCounts.zero with train := 16 }).cont.hold = some 3 ∧
    (({ sendingClaim .none with cont := (sendingClaim .none).cont.updateEntry 4#8 fun e => { e with attempts := 16 } } : State).abandonDue = some (.entry 4#8) ∧
      claimOf5 4#8 .transmitting .none .stopped ∈ (sendingClaim .none).req.contexts) := by decide +kernel

theorem witness_RoundsEndAndHoldsStartAndEnd :
    (inStep.ctl.state ≠ .offline ∧ inStep.frameInProgress = false ∧ inStep.cont.hold = none) ∧
    ((taking 2).ctl.state ≠ .offline ∧ (taking 2).frameInProgress = false ∧ (taking 2).cont.hold = some 1 ∧ (taking 2).sync.shadow = some (shadowOf 2)) ∧
    (∀ sh : Shadow, ({ inStep with cont := { inStep.cont with hold := some 2 } } : State).sync.shadow = some sh → sh.source ≠ 2) ∧
    (inStep.line.dominantLeft = 0 ∧ (taking 2).line.dominantLeft = 0 ∧ 0 < (heldDominant 1 inStep).line.dominantLeft ∧
      (offering inStep .sending .heartbeat .heartbeat false []).frameInProgress = true) ∧
    (Instr.heardFrame (claimCommand 2 7#16 agreeing) = some (claimFrame 2 7#16 agreeing) ∧ (taking 2).canHear = true ∧
      (taking 2).wellFormedHere (claimFrame 2 7#16 agreeing) = true ∧ agreeing.reject = false ∧ ¬ (taking 2).noIntrusionBy 2 ∧
      (taking 2).noIntrusionBy 1 ∧ (shadowOf 2).source = 1 ∧ inStep.noIntrusionBy 2) ∧
    (Instr.ownFrame (.heartbeat .own agreeing) = some (.heartbeat, agreeing) ∧
      (sending inStep .heartbeat .heartbeat false []).sendsKind .heartbeat .heartbeat { kind := .heartbeat, cont := false, seq := 7#16, body := [] }) := by
  refine ⟨by decide +kernel, by decide +kernel, (fun sh h => by cases h), by decide +kernel,
    ⟨rfl, by decide +kernel, by decide +kernel, rfl, ?_, Or.inr rfl, rfl, Or.inl rfl⟩, rfl, rfl, rfl⟩
  unfold State.noIntrusionBy; decide +kernel

/-- What an intrusion, a release and a hold kept leave, on small states. -/
theorem test_hold_follows_cont :
    after (exec (claimCommand 2 7#16 agreeing) (taking 2)) (fun t => t.cont.hold == none && t.sync.shadow == none && t.port.flag .trainLost && t.cont.syncReqPending) = true ∧
    after (exec (.snapEntry (.heard { station := 1, cont := true, seq := 0xFFFF#16 } (ClaimState.free.recordBytes 2#8)) agreeing) (taking 2)) (fun t =>
      t.cont.hold == some 1) = true ∧
    after (exec (.snapTail (.heard (headOfStation 1 0xFFFF#16) 0#16) agreeing) (taking 2)) (fun t => t.cont.hold == none) = true := by decide +kernel

theorem witness_AgreedStateFrameIsAppliedByTheReceiver :
    Instr.heardFrame (claimCommand 1 7#16 agreeing) = some (claimFrame 1 7#16 agreeing) ∧
    stateBodyOf .claim [5#8, 0x40#8, 9#8] = some (.claim 5#8 .excl true 9#8) ∧ inStep.ctl.state.applies = true ∧ leaving.ctl.state.applies = true ∧
    inStep.canHear = true ∧ inStep.wellFormedHere (claimFrame 1 7#16 agreeing) = true ∧ agreeing.reject = false ∧
    inStep.agreesWith (claimFrame 1 7#16 agreeing) ∧ (headOfStation 1 7#16).station ≠ inStep.ctl.number ∧
    ¬ (StateBody.claim 5#8 .excl true 9#8).reaps inStep.ctl.number ∧ inStep.noIntrusionBy 1 ∧
    inStep.agreesWith { kind := .join, head := headOfStation 4 0xFFFF#16, bytes := [0x12#8, 0x34#8, 0#8, 0#8], answers := agreeing } ∧
    ¬ (StateBody.reap (BitVec.ofNat 8 2)).reaps inStep.ctl.number ∧ inStep.replica.present 1 = true ∧ inStep.replica.present 2 = true ∧
    inStep.grantsHere (inStep.replica.apply inStep.tableSize 1 (.claim 5#8 .excl true 9#8)) = [] := by
  refine ⟨rfl, by decide +kernel, by decide +kernel, by decide +kernel, by decide +kernel, by decide +kernel, rfl, ?_, by decide +kernel, ?_, Or.inl rfl, ?_, ?_,
    by decide +kernel, by decide +kernel, by decide +kernel⟩
  · unfold State.agreesWith; decide +kernel
  · rintro ⟨t, h, -⟩; cases h
  · unfold State.agreesWith; decide +kernel
  · rintro ⟨t, h, hr⟩; cases h; revert hr; decide +kernel

theorem witness_DisagreeingReceiverLosesStepOrDisregards :
    Instr.heardFrame (claimCommand 1 9#16 agreeing) = some (claimFrame 1 9#16 agreeing) ∧
    inStep.wellFormedHere (claimFrame 1 9#16 agreeing) = true ∧ ¬ inStep.agreesWith (claimFrame 1 9#16 agreeing) ∧
    agreeing.agree = true ∧ disagreeing.agree = false ∧ ¬ inStep.agreesWith (claimFrame 1 9#16 disagreeing) := by
  refine ⟨rfl, by decide +kernel, ?_, rfl, rfl, ?_⟩ <;> (unfold State.agreesWith; decide +kernel)

theorem witness_StationOutOfStepAppliesNoStateFrame :
    Instr.heardFrame (claimCommand 1 9#16 agreeing) = some (claimFrame 1 9#16 agreeing) ∧
    outOfStep.ctl.state.applies = false ∧ outOfStep.canHear = true ∧ outOfStep.wellFormedHere (claimFrame 1 9#16 agreeing) = true ∧
    (station .listening).canHear = true ∧ (station .joining).canHear = true ∧
    ((station .listening).ctl.state.ownNumberRule = false ∧ (station .listening).wellFormedHere (claimFrame 3 9#16 agreeing) = true) := by
  refine ⟨rfl, ?_⟩; decide +kernel

theorem witness_RejectedFrameIsHeardAndChangesNothingElse :
    Instr.heardFrame (claimCommand 1 7#16 rejecting) = some (claimFrame 1 7#16 rejecting) ∧ inStep.canHear = true ∧
    inStep.wellFormedHere (claimFrame 1 7#16 rejecting) = true ∧ rejecting.reject = true ∧ (station .muted).ctl.state = .muted ∧
    (station .muted).canHear = true ∧ (FrameKind.claim.isState = true ∧ inStep.ctl.state.applies = true) ∧
    (inStep.agreesWith (claimFrame 1 7#16 rejecting) ∧ ¬ inStep.agreesWith (claimFrame 1 9#16 rejecting)) ∧
    (Instr.heardFrame (.syncReq (.heard (headOfStation 1 0xFFFF#16) ()) rejecting) =
        some { kind := .syncReq, head := headOfStation 1 0xFFFF#16, bytes := [], answers := rejecting } ∧
      FrameKind.syncReq.isState = false ∧ outOfStep.ctl.state.applies = false) := by
  refine ⟨rfl, by decide +kernel, by decide +kernel, rfl, rfl, by decide +kernel, by decide +kernel, ?_, rfl, rfl, by decide +kernel⟩
  unfold State.agreesWith; decide +kernel

theorem witness_OwnNumberFrameRefusesTheStation :
    Instr.heardFrame (claimCommand 3 7#16 agreeing) = some (claimFrame 3 7#16 agreeing) ∧
    (inStep.ctl.state.ownNumberRule = true ∧ leaving.ctl.state.ownNumberRule = true ∧ outOfStep.ctl.state.ownNumberRule = true ∧
      (station .syncing).ctl.state.ownNumberRule = true ∧ (station .muted).ctl.state.ownNumberRule = true) ∧
    inStep.canHear = true ∧ leaving.canHear = true ∧ inStep.wellFormedHere (claimFrame 3 7#16 agreeing) = true ∧ (headOfStation 3 7#16).station = inStep.ctl.number := by
  refine ⟨rfl, ?_⟩; decide +kernel

theorem witness_AgreedOwnStateFrameIsAppliedByTheSender :
    Instr.ownFrame (.claim .own agreeing) = some (.claim, agreeing) ∧
    (sendingClaim .none).sendsKind .claim (.entry 4#8) { kind := .claim, cont := false, seq := 7#16, body := [5#8, 0x40#8, 4#8] } ∧
    stateBodyOf .claim [5#8, 0x40#8, 4#8] = some (.claim 5#8 .excl true 4#8) ∧ (sendingClaim .none).ctl.state.applies = true ∧
    (agreeing.agree = true ∧ silentLine.disagree = false) ∧ ¬ (StateBody.claim 5#8 .excl true 4#8).reaps 3 ∧ (sendingClaim .none).noIntrusionBy 3 ∧
    (sending inStep (.reap 1) .reap false [1#8]).sendsKind .reap (.reap 1) { kind := .reap, cont := false, seq := 7#16, body := [1#8] } ∧
    ¬ (StateBody.reap 1#8).reaps 3 := by
  refine ⟨rfl, ⟨rfl, rfl⟩, by decide +kernel, by decide +kernel, ⟨rfl, rfl⟩, ?_, Or.inl rfl, ⟨rfl, rfl⟩, ?_⟩
  · rintro ⟨t, h, -⟩; cases h
  · rintro ⟨t, h, hr⟩; cases h; revert hr; decide +kernel

theorem witness_OutcomeOfTheOwnFrameDecidesItsContext :
    ((sendingClaim .cancelled).requestLaw ∧ (sendingClaimOfHeld .none).requestLaw ∧ (sendingClaimOfHeld .timedOut).requestLaw ∧ sendingWithdraw.requestLaw) ∧
    ((sendingClaim .cancelled).replica.apply 16 3 (.claim 5#8 .excl true 4#8)).outcome = some (.granted, 1#16) ∧
    ((sendingClaimOfHeld .none).replica.apply 16 3 (.claim 5#8 .excl true 4#8)).outcome = some (.queued, 9#16) ∧
    (sendingWithdraw.replica.apply 16 3 (.withdraw 5#8)).outcome = some (.withdrawn, 9#16) ∧
    ((sendingClaim .cancelled).replica.apply 16 3 (.claim 5#8 .excl true 4#8)).grants = [] ∧
    (sendingWithdraw.replica.apply 16 3 (.withdraw 5#8)).grants = [] ∧
    sendingWithdraw.sendsKind .withdraw (.entry 4#8) { kind := .withdraw, cont := false, seq := 7#16, body := [5#8] } :=
  ⟨⟨requestLaw_of (by decide +kernel), requestLaw_of (by decide +kernel), requestLaw_of (by decide +kernel), requestLaw_of (by decide +kernel)⟩,
    by decide +kernel, by decide +kernel, by decide +kernel, by decide +kernel, by decide +kernel, ⟨rfl, rfl⟩⟩

theorem witness_AppliedReapEvictsAndLeaveDeparts :
    (inStep.ctl.state.applies = true ∧ inStep.canHear = true ∧ (headOfStation 1 7#16).seq = inStep.replica.sequence ∧
      inStep.replica.present 1 = true ∧ inStep.replica.present 3 = true) ∧
    ((sending leaving .leave .leave false []).sendsKind .leave .leave { kind := .leave, cont := false, seq := 7#16, body := [] } ∧
      (sending leaving .leave .leave false []).ctl.state = .leaving ∧ leaving.replica.present 3 = true ∧ leaving.noIntrusionBy 3) :=
  ⟨by decide +kernel, ⟨rfl, rfl⟩, rfl, by decide +kernel, Or.inl rfl⟩

theorem witness_StaleSenderLosesStep :
    Instr.ownFrame (.claim .own disagreeing) = some (.claim, disagreeing) ∧
    (sendingClaim .none).sendsKind .claim (.entry 4#8) { kind := .claim, cont := false, seq := 7#16, body := [5#8, 0x40#8, 4#8] } ∧
    FrameKind.claim.isState = true ∧ disagreeing.reject = false ∧ disagreeing.agree = false ∧ disagreeing.disagree = true ∧
    (sendingClaim .none).requestLaw ∧ (sendingClaim .timedOut).requestLaw ∧ sendingWithdraw.requestLaw ∧
    sendingWithdraw.sendsKind .withdraw (.entry 4#8) { kind := .withdraw, cont := false, seq := 7#16, body := [5#8] } :=
  ⟨rfl, ⟨rfl, rfl⟩, rfl, rfl, rfl, rfl, requestLaw_of (by decide +kernel), requestLaw_of (by decide +kernel), requestLaw_of (by decide +kernel), ⟨rfl, rfl⟩⟩

theorem witness_JoinerReadsItsJoin :
    (sending (station .joining) .join .join false [0x12#8, 0x34#8, 0#8, 0#8]).sendsKind .join .join
      { kind := .join, cont := false, seq := 7#16, body := [0x12#8, 0x34#8, 0#8, 0#8] } ∧
    (station .joining).ctl.state = .joining ∧ (station .joining).ctl.heardState = false ∧
    ({ station .joining with ctl := { (station .joining).ctl with heardState := true } } : State).ctl.heardState = true :=
  ⟨⟨rfl, rfl⟩, rfl, rfl, rfl⟩

theorem witness_ClaimIsRefusedGrantedOrQueued :
    inStep.replica.present 1 = true ∧ (5#8).toNat < 64 ∧ (15#8).toNat < 64 ∧
    ((inStep.replica.entry 5).permit.has 1 = true ∧ (inStep.replica.entry 20).permit.has 1 = false) ∧
    ((heldBy 1 []).holders.has 1 = true ∧ (heldBy 2 [{ station := 1, mode := .excl, tag := 0#8 }]).waits 1 = true) ∧
    ((inStep.replica.entry 5).waiters = [] ∧ (inStep.replica.entry 5).state = .free) ∧
    (¬ ((heldBy 2 []).state = .free ∨ (heldBy 2 []).state = .shared) ∧ (withEntry inStep 5 (heldBy 2 [])).replica.poolInUse < 48 ∧
      48 ≤ ({ inStep.replica with poolInUse := 48 } : Replica).poolInUse) := by decide +kernel

theorem witness_PromotionGrantsFromTheHead :
    (heldBy 1 []).waiters = [] ∧ entry5.waiters ≠ [] ∧
    (∃ e : Entry, e.waiters = [{ station := 1, mode := .excl, tag := 2#8 }] ∧ e.holders = 0#16) ∧
    (({ entry5 with state := .shared } : Entry).state ≠ .exclusive ∧ (entry5.waiters.head?.map Waiter.mode) = some .shared) ∧
    ((entry5after1.waiters.head?.map Waiter.mode) = some .excl ∧ entry5after1.holders ≠ 0#16) ∧ entry5.holders.has 2 = true ∧ entry5.waits 3 = true ∧
    entry5.state = .exclusive ∧ entry5.sharedOk = true ∧ entry5.holders.has 3 = false ∧ entry5.waits 2 = false ∧
    ({ entry5 with sharedOk := false } : Entry).sharedOk = false :=
  ⟨rfl, by decide +kernel, ⟨{ Entry.empty with waiters := [{ station := 1, mode := .excl, tag := 2#8 }] }, rfl, rfl⟩, by decide +kernel, by decide +kernel,
    by decide +kernel, by decide +kernel, rfl, rfl, by decide +kernel, by decide +kernel, rfl⟩

theorem witness_ReleaseWithdrawAndDowngradeOutcomes :
    inStep.replica.present 1 = true ∧ ((withEntry inStep 5 (heldBy 1 [])).replica.entry 5).holders.has 1 = true ∧
    ((withEntry inStep 5 (heldBy 2 [{ station := 1, mode := .excl, tag := 0#8 }])).replica.entry 5).waits 1 = true ∧
    (inStep.replica.entry 5).holders.has 1 = false ∧ (inStep.replica.entry 5).waits 1 = false ∧ (inStep.replica.entry 5).state ≠ .exclusive ∧
    ((withEntry inStep 5 (heldBy 1 [])).replica.entry 5).sharedOk = true ∧
    ((withEntry inStep 63 { heldBy 1 [] with sharedOk := false }).replica.entry 63).sharedOk = false := by decide +kernel

theorem witness_RosterFramesFollowTheRosterTable :
    inStep.replica.present 4 = false ∧ inStep.replica.present 1 = true ∧ inStep.replica.present 2 = true ∧ StateBody.leave ≠ .join ∧ 16 ≤ (16#8).toNat ∧
    (StateBody.reap 2#8 = .reap (BitVec.ofNat 8 (2 : Station).val) ∧ (0 : Nat) < 16) := by
  decide +kernel

/-- Entry 5 held by station 1 with station 3's claim under tag 4 at its head. -/
def grantComing (st : ContextState) (kind : Option SendKind) : State :=
  withContext (withEntry inStep 5 (heldBy 1 [{ station := 3, mode := .excl, tag := 4#8 }])) (claimOf5 4#8 st .none .stopped) kind

/-- A replica whose entries are all empty obeys every law of the table. -/
theorem lawful_of_empty_entries {r : Replica} (he : ∀ i, r.entry i = Entry.empty) (hp : r.poolLaw) : r.lawful 16 := by
  have hno : ∀ x : Station, Entry.empty.holders.has x = false := fun x => by simp [Entry.empty, StationSet.has]
  refine ⟨fun i => ?_, fun i _ => he i, fun i x h => ?_, hp⟩
  · rw [he i]
    refine ⟨⟨rfl, rfl⟩, by decide, ?_, fun x h => ?_, trivial⟩
    · intro w h; simp [Entry.empty] at h
    · rw [hno x] at h; exact absurd h (by decide)
  · rw [he i, hno x] at h
    simp [Entry.empty, Entry.waits] at h

/-- Every entry of the empty table is empty. -/
theorem empty_entries (i : Nat) : Replica.empty.entry i = Entry.empty := by
  unfold Replica.entry Replica.empty
  by_cases h : i < 64 <;> simp [h]

/-- Entry 5 with station 3 waiting behind station 1, an entry that was never claimed, and an entry outside the table are lawful. -/
theorem entries_lawful {e : Entry} (h : e = heldBy 1 [{ station := 3, mode := .excl, tag := 4#8 }] ∨
    e = { Entry.empty with permit := 0xFFFF#16, sharedOk := true } ∨ e = Entry.empty) : e.lawful := by
  rcases h with rfl | rfl | rfl
  · refine ⟨⟨1, rfl⟩, by decide, ?_, ?_, by show (heldBy 1 _).holders ≠ 0#16; decide +kernel⟩
    · decide +kernel
    · decide +kernel
  · refine ⟨⟨rfl, rfl⟩, by decide, ?_, ?_, trivial⟩
    · decide +kernel
    · decide +kernel
  · refine ⟨⟨rfl, rfl⟩, by decide, ?_, ?_, trivial⟩
    · decide +kernel
    · decide +kernel

/-- The replica with entry 5 held by station 1, station 3 waiting for it, obeys every law of the table. -/
theorem grantComing_lawful (st : ContextState) (kind : Option SendKind) : (grantComing st kind).replica.lawful 16 := by
  have hr : (grantComing st kind).replica = (grantComing .waiting none).replica := rfl
  rw [hr]
  have hi : ∀ i : Nat, 64 ≤ i → (grantComing .waiting none).replica.entry i = Entry.empty := fun i h => by
    unfold Replica.entry
    rw [Vector.getElem?_eq_none (by omega)]
    rfl
  have hs : ∀ i : Fin 64, (grantComing .waiting none).replica.entry i = heldBy 1 [{ station := 3, mode := .excl, tag := 4#8 }] ∨
      (grantComing .waiting none).replica.entry i = { Entry.empty with permit := 0xFFFF#16, sharedOk := true } ∨
      (grantComing .waiting none).replica.entry i = Entry.empty := by decide +kernel
  have ho : ∀ i : Fin 64, 16 ≤ i.val → (grantComing .waiting none).replica.entry i = Entry.empty := by decide +kernel
  have hm : ∀ i : Fin 64, ∀ x : Station, ((grantComing .waiting none).replica.entry i).holders.has x = true ∨
      ((grantComing .waiting none).replica.entry i).waits x = true → (grantComing .waiting none).replica.present x = true := by decide +kernel
  refine ⟨fun i => ?_, fun i h => ?_, fun i x h => ?_, by unfold Replica.poolLaw; decide +kernel⟩
  · by_cases h : i < 64
    · exact entries_lawful (hs ⟨i, h⟩)
    · exact entries_lawful (Or.inr (Or.inr (hi i (by omega))))
  · by_cases h' : i < 64
    · exact ho ⟨i, h'⟩ h
    · exact hi i (by omega)
  · by_cases h' : i < 64
    · exact hm ⟨i, h'⟩ x h
    · rw [hi i (by omega)] at h
      revert h; revert x; decide +kernel

/-- The same at the station's own TABLE_SIZE. -/
theorem grantComing_lawful_here : (grantComing .waiting none).replica.lawful (grantComing .waiting none).tableSize := by
  have h : (grantComing .waiting none).tableSize = 16 := by decide +kernel
  rw [h]
  exact grantComing_lawful .waiting none

/-- A LEAVE of station 1 at sequence 7, as the statements read it. -/
def leaveFrame : HeardFrame := { kind := .leave, head := headOfStation 1 7#16, bytes := [], answers := agreeing }

/-- Station 3 sending a REAP of station 1, which holds the resource it waits for. -/
def reapingTheHolder : State := sending (grantComing .waiting none) (.reap 1) .reap false [1#8]

theorem witness_grants_of_any_frame :
    (Instr.heardFrame (.leave (.heard (headOfStation 1 7#16) ()) agreeing) = some leaveFrame ∧ stateBodyOf .leave [] = some .leave ∧
      (grantComing .withdrawing (some .withdraw)).canHear = true ∧ (grantComing .withdrawing (some .withdraw)).wellFormedHere leaveFrame = true ∧
      (grantComing .withdrawing (some .withdraw)).agreesWith leaveFrame ∧ ¬ StateBody.leave.reaps 3 ∧
      (grantComing .withdrawing (some .withdraw)).requestLaw ∧ (grantComing .withdrawing (some .withdraw)).replica.lawful 16 ∧
      ((grantComing .withdrawing (some .withdraw)).grantsHere ((grantComing .withdrawing (some .withdraw)).replica.apply 16 1 .leave)).length = 1) ∧
    (reapingTheHolder.sendsKind .reap (.reap 1) { kind := .reap, cont := false, seq := 7#16, body := [1#8] } ∧ reapingTheHolder.requestLaw ∧
      reapingTheHolder.replica.lawful 16 ∧ (1 : Station) ≠ reapingTheHolder.ctl.number ∧ ([1#8] : List Byte) = [BitVec.ofNat 8 (1 : Station).val] ∧
      (reapingTheHolder.grantsHere (reapingTheHolder.replica.apply 16 3 (.reap (BitVec.ofNat 8 1)))).length = 1) := by
  refine ⟨⟨rfl, rfl, by decide +kernel, by decide +kernel, ?_, ?_, requestLaw_of (by decide +kernel), grantComing_lawful _ _, by decide +kernel⟩,
    ⟨rfl, rfl⟩, requestLaw_of (by decide +kernel), grantComing_lawful .waiting none, by decide +kernel, rfl, by decide +kernel⟩
  · unfold State.agreesWith; decide +kernel
  · rintro ⟨t, h, -⟩; cases h

theorem witness_GrantToTheLocalStationCompletesItsClaim :
    ((grantComing .waiting none).requestLaw ∧ (grantComing .waiting none).sendListLaw) ∧
    ((grantComing .withdrawing (some .withdraw)).requestLaw ∧ (grantComing .withdrawing (some .withdraw)).sendListLaw) ∧
    (((grantComing .waiting none).replica.entry 5).state = .exclusive ∧
      ((grantComing .waiting none).replica.entry 5).holders = StationSet.addStation 0#16 1 ∧
      ((grantComing .waiting none).replica.entry 5).waiters = [{ station := 3, mode := .excl, tag := 4#8 }]) ∧
    (∀ c ∈ (withEntry inStep 5 (heldBy 1 [{ station := 3, mode := .excl, tag := 4#8 }])).req.contexts, c.state ≠ .waiting ∧ c.state ≠ .withdrawing) := by
  refine ⟨⟨requestLaw_of (by decide +kernel), by decide +kernel, ?_⟩, ⟨requestLaw_of (by decide +kernel), by decide +kernel, ?_⟩, by decide +kernel, by decide +kernel⟩
  · decide +kernel
  · decide +kernel

theorem witness_SyncReqSetsTrainIntent :
    inStep.canHear = true ∧ outOfStep.canHear = true ∧ inStep.sync.phase = .none ∧ (headOfStation 1 0xFFFF#16).station ≠ inStep.ctl.number ∧
    (sending outOfStep .syncReq .syncReq false []).sendsKind .syncReq .syncReq { kind := .syncReq, cont := false, seq := 7#16, body := [] } :=
  ⟨by decide +kernel, by decide +kernel, rfl, by decide +kernel, rfl, rfl⟩

theorem witness_SnapHeadOpensTheShadow :
    outOfStep.ctl.state.requesting = true ∧ inStep.ctl.state.requesting = false ∧ outOfStep.canHear = true ∧
    headOf outOfStep.headFields.bytes = some outOfStep.headFields ∧ outOfStep.headFields.digest = outOfStep.port.digest ∧
    outOfStep.headFields.tableSize = outOfStep.tableSize ∧
    headOf ({ outOfStep.headFields with digest := 0#16 } : HeadFields).bytes = some { outOfStep.headFields with digest := 0#16 } ∧
    (0#16 : Word) ≠ outOfStep.port.digest ∧
    headOf ({ outOfStep.headFields with tableSize := 64 } : HeadFields).bytes = some { outOfStep.headFields with tableSize := 64 } ∧ 64 ≠ outOfStep.tableSize ∧
    inStep.sync.shadow = none := by decide +kernel

theorem witness_SnapEntryFillsTheShadow :
    (taking 2).canHear = true ∧ (taking 2).noIntrusionBy 1 ∧ (ClaimState.free.recordBytes 2#8).length = 6 ∧
    recordsOf (ClaimState.free.recordBytes 2#8) = some [{ index := 2#8, claim := .free }] ∧ (2#8).toNat < (taking 2).tableSize ∧
    (taking 2).sync.shadow = some (shadowOf 2) ∧ (shadowOf 2).source = 1 ∧
    [2] = List.range' (shadowOf 2).claims.length 1 ∧ [2] ≠ List.range' (shadowOf 3).claims.length 1 ∧
    outOfStep.wellFormedHere { kind := .snapEntry, head := headOfStation 1 0#16, bytes := ClaimState.free.recordBytes 15#8, answers := agreeing } = true ∧
    (∀ sh : Shadow, outOfStep.sync.shadow = some sh → sh.source ≠ 1) ∧ outOfStep.noIntrusionBy 1 :=
  ⟨by decide +kernel, Or.inr rfl, by decide +kernel, by decide +kernel, by decide +kernel, rfl, rfl, by decide +kernel, by decide +kernel, by decide +kernel,
    (fun sh h => by cases h), Or.inl rfl⟩

theorem witness_SnapTailInstallsAGoodShadow :
    (taking 16).ctl.state.requesting = true ∧ (taking 16).canHear = true ∧ (taking 16).noIntrusionBy 1 ∧ (taking 16).sync.shadow = some (shadowOf 16) ∧
    (∃ check : Word, (shadowOf 16).claims.length = (taking 16).tableSize ∧
      (shadowOf 16).poolInUse = ((shadowOf 16).claims.map fun c => c.waiters.length).sum ∧
      checkBytes 0xFFFF#16 ((shadowOf 16).headBody ++ (shadowOf 16).claims.zipIdx.flatMap fun c => c.1.recordBytes (BitVec.ofNat 8 c.2)) = check) ∧
    (shadowOf 16).roster[(taking 16).ctl.number] = .present ∧ (shadowOf 15).claims.length ≠ (taking 15).tableSize ∧
    ({ shadowOf 16 with roster := (shadowOf 16).roster.set 3 .absent } : Shadow).roster[(3 : Station)] ≠ .present :=
  ⟨by decide +kernel, by decide +kernel, Or.inr rfl, rfl, ⟨_, by decide +kernel, by decide +kernel, rfl⟩, by decide +kernel, by decide +kernel, by decide +kernel⟩

/-- Station 3 serving a train in a phase, under its own hold, its next frame past arbitration. -/
def serving (phase : TrainPhase) (k : FrameKind) (cont : Bool) (body : List Byte) : State :=
  sending { inStep with sync := { inStep.sync with phase := phase }, cont := { inStep.cont with hold := some 3 } } .train k cont body

theorem witness_ServerMovesThroughItsTrain :
    (sending inStep .train .snapHead true inStep.headFields.bytes).sendsKind .snapHead .train { kind := .snapHead, cont := true, seq := 7#16, body := inStep.headFields.bytes } ∧
    inStep.ctl.state = .inStep ∧ inStep.noIntrusionBy 3 ∧
    ((serving .entries .snapEntry true (ClaimState.free.recordBytes 0#8)).sendsKind .snapEntry .train
        { kind := .snapEntry, cont := true, seq := 7#16, body := ClaimState.free.recordBytes 0#8 } ∧
      recordsOf (ClaimState.free.recordBytes 0#8) = some [{ index := 0#8, claim := .free }] ∧
      (serving .entries .snapEntry true (ClaimState.free.recordBytes 0#8)).noIntrusionBy 3) ∧
    (serving .tail .snapTail false [0#8, 0#8]).sendsKind .snapTail .train { kind := .snapTail, cont := false, seq := 7#16, body := [0#8, 0#8] } :=
  ⟨⟨rfl, rfl⟩, rfl, Or.inl rfl, ⟨⟨rfl, rfl⟩, by decide +kernel, Or.inr rfl⟩, rfl, rfl⟩

theorem witness_FramesNotReceivedDeliverNothing :
    inStep.canHear = true ∧ frameGood inStep.tableSize { heardRaw .release (headOfStation 1 7#16) [5#8] with check := 0#16 } = false ∧
    frameGood inStep.tableSize { heardRaw .release (headOfStation 1 7#16) [5#8] with kind := 12#4 } = false ∧
    frameGood inStep.tableSize (heardRaw .release (headOfStation 1 7#16) [16#8]) = false ∧ (station .muted).canHear = true ∧
    (Instr.heardFrame (.release (.heard (headOfStation 1 7#16) 16#8) agreeing) =
        some { kind := .release, head := headOfStation 1 7#16, bytes := [16#8], answers := agreeing } ∧
      inStep.wellFormedHere { kind := .release, head := headOfStation 1 7#16, bytes := [16#8], answers := agreeing } = false) ∧
    (((dataSlots (heardRaw .leave (headOfStation 1 7#16) [])).take 48).length < 49 + 8 * bitsToNat ((((dataSlots (heardRaw .leave (headOfStation 1 7#16) [])).take 48).drop 27).take 6) ∧
      33 ≤ (dataSlots (heardRaw .leave (headOfStation 1 7#16) [])).length ∧
      49 + 8 * bitsToNat (((dataSlots (heardRaw .leave (headOfStation 1 7#16) [])).drop 27).take 6) ≤ (dataSlots (heardRaw .leave (headOfStation 1 7#16) [])).length) ∧
    (holding.line.rx.isHeld = true ∧ holding.line.rx = .held heldFrame ∧ holding.frameInProgress = false) ∧ inStep.ctl.state ≠ .offline ∧
    inStep.sendingOwn = false ∧ inStep.line.rx = .empty ∧ inStep.frameInProgress = false ∧
    ({ inStep with line := { inStep.line with rx := .filling [] } } : State).frameInProgress = true ∧ State.reset.ctl.state = .offline := by
  refine ⟨by decide +kernel, by decide +kernel, by decide +kernel, by decide +kernel, by decide +kernel, ⟨rfl, by decide +kernel⟩, by decide +kernel, ?_⟩
  decide +kernel

theorem witness_CountdownEventsSetTheirFlags :
    ({ inStep with lease := { inStep.lease with remaining := inStep.lease.remaining.set 1 1 } } : State).leaseRunning 1 = true ∧
    inStep.leaseRunning 1 = false ∧ inStep.leaseRunning 3 = false ∧ Timer.running 1 ≠ .stopped ∧ inStep.lease.heartbeat = .stopped ∧
    inStep.sync.retry = .stopped ∧ (station .listening).ctl.state = .listening ∧ (station .listening).ctl.joinWait = .stopped := by decide +kernel

theorem witness_CountsMuteAndRecoverTheStation :
    (inStep.ctl.state.rejects = true ∧ outOfStep.ctl.state.rejects = true ∧ leaving.ctl.state.rejects = true) ∧
    ((station .muted).ctl.state.rejects = false ∧ inStep.ctl.rejectCount < 16) ∧ (station .muted).ctl.state = .muted ∧ inStep.ctl.state ≠ .muted := by
  decide +kernel

theorem witness_EventsLeaveTheHostSettings :
    Instr.fromHost .abandon = false ∧ (∃ t, exec .abandon joinSpent = .next t) ∧
    ({ inStep with port := { inStep.port with flags := 1#16 } } : State).port.flag .founded = true :=
  ⟨rfl, ⟨_, rfl⟩, by decide +kernel⟩

theorem witness_SequenceMovesOnlyByApplyFoundInstallOrDiscard :
    ∃ t, exec (claimCommand 1 7#16 agreeing) inStep = .next t ∧ t.replica.sequence ≠ inStep.replica.sequence :=
  ⟨_, rfl, by decide +kernel⟩

theorem witness_StepKeepsTheLawsOfTheTable :
    ((grantComing .waiting none).memberLaw ∧ (grantComing .waiting none).replica.lawful (grantComing .waiting none).tableSize ∧
      (∀ (h : Head) (check : Word) (a : Answers) (rest : List Instr), (grantComing .waiting none).pending ≠ .snapTail (.heard h check) a :: rest) ∧
      ∃ t, step (grantComing .waiting none) = .next t) ∧ Replica.empty.lawful 16 :=
  ⟨⟨by unfold State.memberLaw; decide +kernel, grantComing_lawful_here, (fun _ _ _ _ h => by cases h), _, rfl⟩,
    lawful_of_empty_entries empty_entries (by unfold Replica.poolLaw; decide +kernel)⟩

theorem witness_StepKeepsThePoolLaw : inStep.poolLaw ∧ ∃ t, step inStep = .next t :=
  ⟨⟨by unfold Replica.poolLaw; decide +kernel, fun sh h => by cases h⟩, _, rfl⟩

theorem witness_StepKeepsTheMemberLaw : inStep.memberLaw ∧ (station .listening).memberLaw := by unfold State.memberLaw; decide +kernel

theorem witness_StepKeepsTheRequestAndSendListLaws : readyClaim.requestLaw ∧ readyClaim.sendListLaw := by
  refine ⟨requestLaw_of (by decide +kernel), by decide +kernel, ?_⟩
  decide +kernel

theorem witness_StepKeepsTheCountLineAndOfflineLaws :
    inStep.countLaw ∧ inStep.lineLaw ∧ (heldDominant 1 inStep).lineLaw ∧ (idleFor 9 inStep).lineLaw ∧ inStep.offlineLaw ∧ readyClaim.countLaw ∧
    ∃ t, step (heldDominant 1 inStep) = .next t := by
  refine ⟨?_, ?_, ?_, ?_, ?_, ?_, _, rfl⟩ <;> first | unfold State.countLaw | unfold State.lineLaw | unfold State.offlineLaw
  all_goals decide +kernel

theorem witness_DataSlotsReadBackAndPassTheChecks :
    (heardRaw .release (headOfStation 1 7#16) [5#8]).body.length = (heardRaw .release (headOfStation 1 7#16) [5#8]).len.toNat ∧
    (heardRaw .snapEntry (headOfStation 1 7#16) (List.replicate 40 0#8)).body.length = (heardRaw .snapEntry (headOfStation 1 7#16) (List.replicate 40 0#8)).len.toNat ∧
    (List.replicate 63 0#8 : List Byte).length = (63#6).toNat ∧
    (frameGood 16 (heardRaw .release (headOfStation 1 7#16) [15#8]) = true ∧ frameGood 16 (heardRaw .release (headOfStation 1 7#16) [16#8]) = false ∧
      frameGood 16 (heardRaw .release (headOfStation 1 7#16) []) = false ∧ frameGood 16 (heardRaw .snapHead (headOfStation 1 7#16) inStep.headFields.bytes) = true ∧
      frameGood 16 (heardRaw .snapHead (headOfStation 1 7#16) (inStep.headFields.bytes.set 9 49#8)) = false ∧
      frameGood 16 (heardRaw .snapHead (headOfStation 1 7#16) (inStep.headFields.bytes.set 4 0xC0#8)) = false ∧
      frameGood 16 (heardRaw .snapEntry (headOfStation 1 7#16) (ClaimState.free.recordBytes 15#8)) = true ∧
      frameGood 16 (heardRaw .snapEntry (headOfStation 1 7#16) (ClaimState.free.recordBytes 16#8)) = false) := by decide +kernel

theorem witness_SnapshotBodiesReadBack :
    (∀ c ∈ [((0#8 : Byte), ClaimState.free), (255#8, entry5.claimState)], c.2.waiters.length ≤ 15) ∧ inStep.headFields.tableSize = 16 ∧
    inStep.headFields.poolInUse ≤ 48 ∧
    (recordsOf [1#8, 0#8, 0#8, 0#8, 0#8] = none ∧ recordsOf [1#8, 1#8, 0#8, 0#8, 0#8, 0#8, 0x30#8] = none ∧ recordsOf [1#8, 0xC0#8, 0#8, 0#8, 0#8, 0#8] = none ∧
      (recordsOf [1#8, 0x71#8, 0#8, 2#8, 0#8, 9#8, 0x3F#8, 4#8]).map List.length = some 1) ∧ ({ inStep.headFields with poolInUse := 48 } : HeadFields).poolInUse ≤ 48 := by decide +kernel

theorem witness_SnapEntryBodyIsWholeRecordsUpToFortyBytes :
    inStep.sync.cursor < inStep.tableSize ∧ ({ inStep with sync := { inStep.sync with cursor := 15 } } : State).sync.cursor < inStep.tableSize ∧
    (∀ e ∈ inStep.replica.table.toList, e.waiters.length ≤ 15) := by decide +kernel

/-- A member whose block permits nobody, with the table that goes with it. -/
def bareMember : State := { State.reset with replica := { Replica.empty with valid := true } }

theorem witness_TrainCarriesTheServersReplica :
    ((grantComing .waiting none).ctl.state = .inStep ∧ (grantComing .waiting none).replica.lawful (grantComing .waiting none).tableSize ∧
      (grantComing .waiting none).replica.valid = true ∧ (∀ i : Nat, ((grantComing .waiting none).replica.entry i).waiters.length ≤ 15) ∧
      ((grantComing .waiting none).replica.entry 5).waiters ≠ [] ∧
      (∀ i : Nat, i < (grantComing .waiting none).tableSize →
        ((grantComing .waiting none).replica.entry i).permit = (grantComing .waiting none).port.permit i ∧
        ((grantComing .waiting none).replica.entry i).sharedOk = (grantComing .waiting none).port.sharedOk i)) ∧
    (bareMember.replica.lawful bareMember.tableSize ∧ bareMember.replica.valid = true) := by
  refine ⟨⟨rfl, grantComing_lawful_here, rfl, fun i => ?_, by decide +kernel, by decide +kernel⟩,
    lawful_of_empty_entries empty_entries (by unfold Replica.poolLaw; decide +kernel), rfl⟩
  have h : ∀ i : Fin 64, ((grantComing .waiting none).replica.entry i).waiters.length ≤ 15 := by decide +kernel
  by_cases hi : i < 64
  · exact h ⟨i, hi⟩
  · unfold Replica.entry
    rw [Vector.getElem?_eq_none (by omega)]
    decide

end Sys2Proof.Tests
end

section
/-! The claim table's family. Promotion from the head of a wait list (R20), and the empty form of the replica (R3). -/

namespace Sys2Proof.Machine

/-! ### Promotion, head by head -/

/-- Promotion over a list reads the list it is given, not the one the entry holds. -/
theorem promoteFrom_with_waiters (ws l : List Waiter) (e : Entry) :
    promoteFrom ws { e with waiters := l } = promoteFrom ws e := by
  induction ws generalizing e with
  | nil => rfl
  | cons w ws ih =>
    simp only [promoteFrom]
    rw [show ({ e with waiters := l } : Entry).grant w.station .shared = { e.grant w.station .shared with waiters := l } from rfl,
      ih (e.grant w.station .shared)]
    rfl

/-- An entry with nobody waiting stays as it is. -/
theorem Entry.promote_nil {e : Entry} (h : e.waiters = []) : e.promote = (e, []) := by
  cases e
  subst h
  rfl

section head
variable {e : Entry} {w : Waiter} {ws : List Waiter}

/-- An EXCL head of an entry without holders is granted, and promotion stops. -/
theorem Entry.promote_excl (h : e.waiters = w :: ws) (hw : w.mode = .excl) (hh : e.holders = 0#16) :
    e.promote = ({ e.grant w.station .excl with waiters := ws }, [{ waiter := w, generation := e.generation + 1#16 }]) := by
  simp [Entry.promote, promoteFrom, h, hw, hh]

/-- A SHARED head of an entry not held EXCLUSIVE is granted, and promotion goes on from the next record. -/
theorem Entry.promote_shared (h : e.waiters = w :: ws) (hw : w.mode = .shared) (hs : e.state ≠ .exclusive) :
    e.promote = (({ e.grant w.station .shared with waiters := ws } : Entry).promote.1,
      { waiter := w, generation := e.generation + 1#16 } :: ({ e.grant w.station .shared with waiters := ws } : Entry).promote.2) := by
  simp only [Entry.promote, promoteFrom_with_waiters]
  simp [promoteFrom, h, hw, hs]

/-- At a head that is not grantable promotion stops, and the entry stays as it is. -/
theorem Entry.promote_stops (h : e.waiters = w :: ws) (hx : ¬ (w.mode = .excl ∧ e.holders = 0#16))
    (hs : ¬ (w.mode = .shared ∧ e.state ≠ .exclusive)) : e.promote = (e, []) := by
  have same : ({ e with waiters := w :: ws } : Entry) = e := by cases e; subst h; rfl
  cases hw : w.mode with
  | excl =>
    have hh : e.holders ≠ 0#16 := fun hh => hx ⟨hw, hh⟩
    simp [Entry.promote, promoteFrom, h, hw, hh, same]
  | shared =>
    have he : e.state = .exclusive := by_contra fun he => hs ⟨hw, he⟩
    simpa [Entry.promote, promoteFrom, h, hw, he] using same

end head

/-! ### What a promotion never does -/

/-- One promotion grants at most one EXCL waiter: an EXCL grant is its last. -/
theorem promoteFrom_excl_grants (ws : List Waiter) (e : Entry) :
    ((promoteFrom ws e).2.filter fun g => g.waiter.mode == .excl).length ≤ 1 := by
  induction ws generalizing e with
  | nil => simp [promoteFrom]
  | cons w ws ih =>
    cases hw : w.mode with
    | excl => by_cases hh : e.holders = 0#16 <;> simp [promoteFrom, hw, hh]
    | shared =>
      by_cases hs : e.state = .exclusive
      · simp [promoteFrom, hw, hs]
      · simpa [promoteFrom, hw, hs] using ih (e.grant w.station .shared)

/-- The waiter at the head of an entry cannot be granted: EXCL against a holder, SHARED against an EXCLUSIVE hold (R20). -/
def Entry.HeadBlocked (e : Entry) : Prop :=
  ∀ w : Waiter, e.waiters.head? = some w → (w.mode = .excl → e.holders ≠ 0#16) ∧ (w.mode = .shared → e.state = .exclusive)

/-- An entry just granted EXCL blocks whatever head it has. -/
theorem Entry.headBlocked_of_excl_grant (e : Entry) (x : Station) (ws : List Waiter) :
    ({ e.grant x .excl with waiters := ws } : Entry).HeadBlocked :=
  fun _ _ => ⟨fun _ => StationSet.addStation_ne_zero e.holders x, fun _ => rfl⟩

/-- Promotion leaves no head that could be granted. -/
theorem promoteFrom_headBlocked (ws : List Waiter) (e : Entry) : (promoteFrom ws e).1.HeadBlocked := by
  induction ws generalizing e with
  | nil => simp [promoteFrom, Entry.HeadBlocked]
  | cons w ws ih =>
    cases hw : w.mode with
    | excl =>
      by_cases hh : e.holders = 0#16
      · simpa [promoteFrom, hw, hh] using e.headBlocked_of_excl_grant w.station ws
      · simp [promoteFrom, Entry.HeadBlocked, hw, hh]
    | shared =>
      by_cases hs : e.state = .exclusive
      · simp [promoteFrom, Entry.HeadBlocked, hw, hs]
      · simpa [promoteFrom, hw, hs] using ih (e.grant w.station .shared)

/-! ### Where promotion runs, and where not -/

section tableFrames
variable {e : Entry} {x : Station}

theorem Entry.applyRelease_of_holder (h : e.holders.has x = true) : e.applyRelease x = (e.dropHolder x).promoted .released := if_pos h

theorem Entry.applyRelease_of_not_holder (h : e.holders.has x = false) : e.applyRelease x = e.unchanged .notHeld := by
  simp [Entry.applyRelease, h]

theorem Entry.applyWithdraw_of_waiter (h : e.waits x = true) : e.applyWithdraw x = (e.dropWaiter x).promoted .withdrawn := if_pos h

theorem Entry.applyWithdraw_of_not_waiter (h : e.waits x = false) : e.applyWithdraw x = e.unchanged .none := by
  simp [Entry.applyWithdraw, h]

theorem Entry.applyDowngrade_of_holder (hs : e.state = .exclusive) (h : e.holders.has x = true) (ho : e.sharedOk = true) :
    e.applyDowngrade x = ({ e with state := .shared } : Entry).promoted .downgraded := by
  simp [Entry.applyDowngrade, hs, h, ho]

theorem Entry.applyDowngrade_of_not_exclusive (h : e.state ≠ .exclusive ∨ e.holders.has x = false) :
    e.applyDowngrade x = e.unchanged .notHeld := by
  rcases h with h | h <;> simp [Entry.applyDowngrade, h]

theorem Entry.applyDowngrade_of_not_sharedOk (hs : e.state = .exclusive) (h : e.holders.has x = true) (ho : e.sharedOk = false) :
    e.applyDowngrade x = e.unchanged .notPermitted := by
  simp [Entry.applyDowngrade, hs, h, ho]

end tableFrames

/-- A CLAIM promotes nobody: a grant at once is its outcome, not a grant of promotion (R14 to R16). -/
theorem Entry.applyClaim_grants (e : Entry) (p : Nat) (x : Station) (m : Mode) (w : Bool) (tag : Byte) :
    (e.applyClaim p x m w tag).grants = [] := by
  unfold Entry.applyClaim
  repeat' split
  all_goals rfl

/-- Removal reaches every index below TABLE_SIZE. Where the table has no entry (64 and above) the empty form is read, which removal
keeps. -/
theorem Replica.entry_removeStation_of_lt (r : Replica) {ts i : Nat} (x : Station) (h : i < ts) :
    (r.removeStation ts x).replica.entry i = ((r.entry i).remove x).1 := by
  rw [Replica.entry_removeStation]
  split
  case isTrue => rfl
  case isFalse hi =>
    rw [Replica.entry_of_ge r (by omega : 64 ≤ i)]
    simp [Entry.remove, Entry.dropHolder, Entry.dropWaiter, Entry.empty, StationSet.has_zero, Entry.promote, promoteFrom]

/-- Settles O37: promotion by its head, then its consequences by induction on the wait list, then the table frames one by one. -/
theorem promotionGrantsFromTheHead : Obligations.PromotionGrantsFromTheHead := by
  unfold Obligations.PromotionGrantsFromTheHead
  refine ⟨fun e => Entry.promote_nil, fun e w ws h => ⟨Entry.promote_excl h, Entry.promote_shared h, Entry.promote_stops h⟩,
    fun e => ⟨promoteFrom_split _ e, promoteFrom_excl_grants _ e, promoteFrom_headBlocked _ e⟩, ?_, ?_, ?_,
    fun e x => rfl, fun r ts x i => r.entry_removeStation_of_lt x, Entry.applyClaim_grants, fun e x => ⟨?_, ?_, ?_, ?_⟩⟩
  · intro e x h
    rw [Entry.applyRelease_of_holder h]
    exact ⟨rfl, rfl⟩
  · intro e x h
    rw [Entry.applyWithdraw_of_waiter h]
    exact ⟨rfl, rfl⟩
  · intro e x hs h ho
    rw [Entry.applyDowngrade_of_holder hs h ho]
    exact ⟨rfl, rfl⟩
  · exact Entry.applyRelease_of_not_holder
  · exact Entry.applyWithdraw_of_not_waiter
  · exact Entry.applyDowngrade_of_not_exclusive
  · exact Entry.applyDowngrade_of_not_sharedOk

/-! ### The empty form, and who discards the replica -/

/-- The reset value of the replica is the empty form of Table 1-1. -/
theorem Replica.empty_isEmptyForm : Replica.empty.isEmptyForm := by
  refine ⟨fun i => ?_, rfl, fun x => by simp [Replica.membership, Replica.empty], rfl, rfl⟩
  by_cases hi : i < 64
  · rw [Replica.entry_of_lt _ hi]
    simp [Replica.empty, Entry.empty]
  · rw [Replica.entry_of_ge _ (by omega)]
    rfl

/-- In an end state the replica is the empty form (R2, R134). No step gives up this law, so a station that was in no end state and is
in one after a command has discarded its replica. -/
structure State.DiscardLaw (s : State) : Prop where
  empty_of_ended : s.ctl.state.ended = true → s.replica = Replica.empty

theorem State.discardLaw_of_not_ended {s : State} (h : s.ctl.state.ended = false) : s.DiscardLaw := ⟨by simp [h]⟩

theorem State.discardLaw_of_empty {s : State} (h : s.replica = Replica.empty) : s.DiscardLaw := ⟨fun _ => h⟩

/-- The law reads the station state and the replica alone. -/
theorem State.DiscardLaw.congr {s t : State} (h : s.DiscardLaw) (hc : t.ctl.state = s.ctl.state) (hr : t.replica = s.replica) :
    t.DiscardLaw := ⟨fun he => hr.trans (h.empty_of_ended (hc ▸ he))⟩

theorem StationState.not_ended_of_applies {st : StationState} (h : st.applies = true) : st.ended = false := by
  cases st <;> first | rfl | cases h

/-! ### Changes of station state -/

theorem State.expel_discardLaw (s : State) (st : StationState) (f : EventFlag) (n : Word) : (s.expel st f n).DiscardLaw :=
  State.discardLaw_of_empty (s.expel_replica st f n)

theorem State.depart_discardLaw (s : State) (n : Word) : (s.depart n).DiscardLaw := State.discardLaw_of_empty (s.depart_replica n)

theorem State.loseStep_discardLaw (s : State) (q : Bool) : (s.loseStep q).DiscardLaw := State.discardLaw_of_not_ended (by simp; rfl)

theorem State.enterListening_discardLaw (s : State) : s.enterListening.DiscardLaw := State.discardLaw_of_not_ended rfl

theorem State.install_discardLaw (s : State) (sh : Shadow) : (s.install sh).DiscardLaw := State.discardLaw_of_not_ended rfl

theorem State.DiscardLaw.raise {s : State} (h : s.DiscardLaw) (f : EventFlag) : (s.raise f).DiscardLaw := h.congr rfl rfl

/-! ### The hold -/

@[simp] theorem State.abandonHold_ctl (s : State) (h : Station) : (s.abandonHold h).ctl = s.ctl := by
  unfold State.abandonHold; dsimp only; split <;> split <;> simp

@[simp] theorem State.abandonHold_replica (s : State) (h : Station) : (s.abandonHold h).replica = s.replica := by
  unfold State.abandonHold; dsimp only; split <;> split <;> simp

@[simp] theorem State.followHold_ctl (s : State) (x : Station) (c : Bool) : (s.followHold x c).ctl = s.ctl := by
  unfold State.followHold; dsimp only; repeat' split
  all_goals simp

@[simp] theorem State.followHold_replica (s : State) (x : Station) (c : Bool) : (s.followHold x c).replica = s.replica := by
  unfold State.followHold; dsimp only; repeat' split
  all_goals simp

/-! ### Port transactions -/

section port
variable {s : State}

theorem State.DiscardLaw.shiftOut {t : State} (ht : t.DiscardLaw) (inputs after : Nat) (out : List Byte) :
    (s.shiftOut inputs after out t).DiscardLaw := ht.congr rfl rfl

theorem State.DiscardLaw.answerStatus {t : State} (ht : t.DiscardLaw) (inputs after : Nat) (st : PortStatus) :
    (s.answerStatus inputs after st t).DiscardLaw := ht.shiftOut ..

theorem State.DiscardLaw.transact (h : s.DiscardLaw) (spi : Spi) {run : Nat → State} (hr : ∀ after, (run after).DiscardLaw) :
    (s.transact spi run).DiscardLaw := by
  cases spi with
  | csnFalls => exact h.congr rfl rfl
  | clocked after => exact hr after

end port

/-! ### Applied state frames -/

/-- After an apply the station is discarded with its eviction, its clash or its departure, and otherwise keeps its state. -/
theorem State.DiscardLaw.afterApply {s : State} (h : s.DiscardLaw) (own : Bool) (before : Replica) (sender : Station) (n : Word)
    (b : StateBody) : (s.afterApply own before sender n b).DiscardLaw := by
  cases b with
  | join =>
    dsimp only [State.afterApply]
    split
    · exact s.expel_discardLaw ..
    · exact h.congr (by simp) (by simp)
  | leave =>
    cases own with
    | true => exact s.depart_discardLaw n
    | false => exact h
  | reap target =>
    dsimp only [State.afterApply]
    cases reapTarget target with
    | none => exact h
    | some t =>
      dsimp only
      split
      · split
        · exact s.expel_discardLaw ..
        · exact h.raise _
      · exact h
  | claim | release | withdraw | downgrade | heartbeat => exact h

/-- Up to the effects by kind an apply leaves the station controller alone. -/
theorem State.applyFrame_eq (s : State) (own : Bool) (tag : Option Byte) (sender : Station) (b : StateBody) :
    ∃ u : State, u.ctl = s.ctl ∧ s.applyFrame own tag sender b =
      if s.replica.admits sender b then u.afterApply own s.replica sender (s.replica.apply s.tableSize sender b).replica.sequence b
      else u := by
  refine ⟨_, ?_, rfl⟩
  have notices_ctl : ∀ (u : State) (n : Word) (gs : List TableGrant), (gs.foldl (fun s g => s.notice n g) u).ctl = u.ctl :=
    fun u n gs => (u.notices_units n gs).2.1
  have heartbeat_ctl : ∀ u : State, (if own then u.restartHeartbeat else u).ctl = u.ctl := by
    intro u
    cases own <;> simp
  rw [State.dropReaped_ctl, heartbeat_ctl, notices_ctl]
  split
  · simp
  · rfl

/-- A state frame is applied outside the end states alone; what it brings about keeps the law. -/
theorem State.applyFrame_discardLaw {s : State} (h : s.ctl.state.applies = true) (own : Bool) (tag : Option Byte) (sender : Station)
    (b : StateBody) : (s.applyFrame own tag sender b).DiscardLaw := by
  obtain ⟨u, hu, happly⟩ := s.applyFrame_eq own tag sender b
  have law : u.DiscardLaw := State.discardLaw_of_not_ended (by rw [hu]; exact StationState.not_ended_of_applies h)
  rw [happly]
  split
  · exact law.afterApply ..
  · exact law

/-! ### Frames heard -/

theorem State.DiscardLaw.receive {s : State} (h : s.DiscardLaw) (k : FrameKind) (hd : Head) (body : List Byte) (a : Answers)
    (answer : Option AnswerSlot) {deliver : State → State} (hdel : ∀ t : State, t.DiscardLaw → (deliver t).DiscardLaw) :
    (s.receive k hd body a answer deliver).DiscardLaw := by
  obtain ⟨-, hrep, -, -, -, hst, -⟩ := s.heardClean_units k hd body a answer
  have hclean : (s.heardClean k hd body a answer).DiscardLaw := h.congr hst hrep
  cases hs : s.canHear with
  | false => rw [s.receive_deaf k hd body a answer deliver hs]; exact h
  | true =>
    cases hg : lenGood k body.length && bodyGood s.tableSize k body with
    | false => rw [s.receive_bad k hd body a answer deliver hs hg]; exact h.congr (by simp) (by simp)
    | true =>
      cases hr : a.reject with
      | true => rw [s.receive_rejected k hd body a answer deliver hs hg hr]; exact hclean
      | false =>
        rw [s.receive_completed k hd body a answer deliver hs hg hr]
        dsimp only
        split
        · exact State.expel_discardLaw ..
        · exact hdel _ (hclean.congr (by simp) (by simp))

theorem State.DiscardLaw.decideHeard {s : State} (h : s.DiscardLaw) (hd : Head) (a : Answers) (agrees : Bool) (b : StateBody) :
    (s.decideHeard hd a agrees b).DiscardLaw := by
  unfold State.decideHeard
  split
  case isTrue ha =>
    split
    · exact State.applyFrame_discardLaw ha ..
    · split
      · exact s.loseStep_discardLaw _
      · exact h
  case isFalse =>
    split
    · exact h.congr rfl rfl
    · exact h

theorem State.DiscardLaw.receiveState {s : State} (h : s.DiscardLaw) (k : FrameKind) (hd : Head) (body : List Byte) (a : Answers)
    (agrees : Bool) (b : StateBody) : (s.receiveState k hd body a agrees b).DiscardLaw :=
  h.receive k hd body a _ fun _ ht => ht.decideHeard hd a agrees b

/-! ### The station's own frames -/

theorem State.DiscardLaw.endSource {s : State} (h : s.DiscardLaw) (src : OfferSource) : (s.endSource src).DiscardLaw :=
  h.congr (by simp) (by simp)

theorem State.DiscardLaw.ownFrameEnds {s : State} (h : s.DiscardLaw) (k : FrameKind) (a : Answers)
    {complete : OfferSource → TxFrame → State → State} (hc : ∀ src f t, t.DiscardLaw → (complete src f t).DiscardLaw) :
    (s.ownFrameEnds k a complete).DiscardLaw := by
  unfold State.ownFrameEnds
  cases s.cont.offer with
  | none => exact h
  | some o =>
    dsimp only
    split
    · exact h
    · split
      · exact h.congr (by simp) (by simp)
      · exact hc _ _ _ (h.congr (by simp) (by simp))

theorem State.DiscardLaw.decideOwn {s : State} (h : s.DiscardLaw) (a : Answers) (src : OfferSource) (b : StateBody) :
    (s.decideOwn a src b).DiscardLaw := by
  unfold State.decideOwn
  split
  · exact h.endSource src
  case isFalse ha =>
    split
    · exact State.loseStep_discardLaw _ false
    · exact State.applyFrame_discardLaw (by simpa using ha) ..

theorem State.DiscardLaw.stateFrameEnds {s : State} (h : s.DiscardLaw) {β : Type} (k : FrameKind) (origin : Origin β) (a : Answers)
    (bytes : β → List Byte) (body : β → StateBody) (tx : List Byte → StateBody) :
    (s.stateFrameEnds k origin a bytes body tx).DiscardLaw := by
  cases origin with
  | own => exact h.ownFrameEnds k a fun src f t ht => ht.decideOwn a src (tx f.body)
  | heard hd b => exact h.receiveState ..

theorem State.DiscardLaw.readJoin {s : State} (h : s.DiscardLaw) (a : Answers) : (s.readJoin a).DiscardLaw := by
  unfold State.readJoin
  split
  · exact h
  · split
    · exact s.expel_discardLaw ..
    · split
      · exact State.discardLaw_of_not_ended rfl
      · split
        · exact s.enterListening_discardLaw
        · exact State.discardLaw_of_not_ended rfl

/-! ### Trains -/

theorem State.DiscardLaw.openShadow {s : State} (h : s.DiscardLaw) (source : Station) (body : List Byte) :
    (s.openShadow source body).DiscardLaw := by
  unfold State.openShadow
  dsimp only
  split
  · exact h.congr rfl rfl
  · split
    · exact State.expel_discardLaw ..
    · split <;> exact h.congr rfl rfl

theorem State.settleShadow_discardLaw (s : State) (sh : Shadow) : (s.settleShadow sh).DiscardLaw := by
  unfold State.settleShadow
  split
  · exact s.install_discardLaw sh
  · exact s.expel_discardLaw ..

theorem State.DiscardLaw.takeTail {s : State} (h : s.DiscardLaw) (sender : Station) (check : Word) :
    (s.takeTail sender check).DiscardLaw := by
  unfold State.takeTail
  split
  · exact h
  · split
    · exact h
    · split
      · exact s.settleShadow_discardLaw _
      · exact h.congr rfl rfl

/-! ### Abandonment -/

theorem State.DiscardLaw.abandonSource {s : State} (h : s.DiscardLaw) (src : OfferSource) : (s.abandonSource src).DiscardLaw := by
  cases src with
  | entry | heartbeat | reap | syncReq => exact h.congr rfl rfl
  | join =>
    unfold State.abandonSource
    dsimp only
    split
    · exact s.enterListening_discardLaw
    · exact h.congr rfl rfl
  | leave =>
    unfold State.abandonSource
    dsimp only
    split
    · exact s.depart_discardLaw _
    · exact h.congr rfl rfl
  | train =>
    unfold State.abandonSource
    dsimp only
    split
    · exact h.congr (by simp) (by simp)
    · exact h.congr rfl rfl

/-! ### Every command -/

/-- A command answers a next state that obeys the law. -/
def AnswersDiscardLaw (o : Host.Outcome State Fault Refusal) : Prop := ∃ t : State, o = .next t ∧ t.DiscardLaw

theorem answers_next {t : State} (h : t.DiscardLaw) : AnswersDiscardLaw (.next t) := ⟨t, rfl, h⟩

section portCommands
variable {s : State} (h : s.DiscardLaw)
include h

theorem execTakeRecordRemoval_discardLaw : AnswersDiscardLaw (execTakeRecordRemoval s) := by
  refine answers_next ?_
  cases s.port.capture with
  | none => exact h
  | some r => exact h.congr rfl rfl

theorem execSubmit_discardLaw (r : RequestRecord) (spi : Spi) : AnswersDiscardLaw (execSubmit r s spi) := by
  refine answers_next (h.transact spi fun after => .answerStatus ?_ ..)
  split
  · exact h.congr (by simp) (by simp)
  · exact h

theorem execCancel_discardLaw (tag : Byte) (spi : Spi) : AnswersDiscardLaw (execCancel tag s spi) := by
  refine answers_next (h.transact spi fun after => ?_)
  split
  · exact .answerStatus (h.congr (by simp) (by simp)) ..
  · exact h.answerStatus ..

theorem execWriteConfig_discardLaw (offset count : Byte) (data : List Byte) (spi : Spi) :
    AnswersDiscardLaw (execWriteConfig offset count data s spi) := by
  refine answers_next (h.transact spi fun after => ?_)
  split
  · exact h.shiftOut ..
  · split
    · exact h.answerStatus ..
    · split
      · exact h.answerStatus ..
      · exact .answerStatus (h.congr (by rfl) (by rfl)) ..

theorem execStart_discardLaw (spi : Spi) : AnswersDiscardLaw (execStart s spi) := by
  refine answers_next (h.transact spi fun after => ?_)
  split
  · exact h.answerStatus ..
  · split
    · exact h.answerStatus ..
    · exact .answerStatus (State.enterListening_discardLaw _) ..

theorem execPortLeave_discardLaw (spi : Spi) : AnswersDiscardLaw (execPortLeave s spi) := by
  refine answers_next (h.transact spi fun after => ?_)
  split
  · exact .answerStatus (State.discardLaw_of_not_ended rfl) ..
  · exact h.answerStatus ..

theorem execRejoin_discardLaw (spi : Spi) : AnswersDiscardLaw (execRejoin s spi) := by
  refine answers_next (h.transact spi fun after => ?_)
  split
  · exact .answerStatus s.enterListening_discardLaw ..
  · exact h.answerStatus ..

theorem execRestart_discardLaw (spi : Spi) : AnswersDiscardLaw (execRestart s spi) := by
  refine answers_next (h.transact spi fun after => ?_)
  split
  · exact h.answerStatus ..
  · exact .answerStatus (State.discardLaw_of_empty rfl) ..

theorem execUnknownTransactionCode_discardLaw (code : Byte) (spi : Spi) :
    AnswersDiscardLaw (execUnknownTransactionCode code spi s) := by
  refine answers_next ?_
  split
  · exact h
  · exact h.transact spi fun after => h.shiftOut ..

theorem execTransactionCutShort_discardLaw (bytes : List Byte) (spi : Spi) :
    AnswersDiscardLaw (execTransactionCutShort bytes s spi) := by
  refine answers_next ?_
  split
  · refine h.transact spi fun _ => ?_
    cases bytes with
    | nil => exact h.congr rfl rfl
    | cons _ rest => exact h.shiftOut ..
  · exact h

end portCommands

section contentionCommands
variable {s : State} (h : s.DiscardLaw)
include h

theorem execOffer_discardLaw : AnswersDiscardLaw (execOffer s) := by
  refine answers_next ?_
  split
  · split
    · exact h.congr (by simp) (by simp)
    · exact h
  · exact h

theorem execArbitrationLost_discardLaw (slot : Nat) : AnswersDiscardLaw (execArbitrationLost s slot) := by
  refine answers_next ?_
  cases s.cont.offer with
  | none => exact h
  | some o =>
    dsimp only
    split
    · exact h.congr rfl rfl
    · exact h

/-- A bit error in the station's own JOIN is a clash (R128); any other fails an attempt. -/
theorem execBitError_discardLaw (slot : Nat) : AnswersDiscardLaw (execBitError slot s) := by
  refine answers_next ?_
  cases s.cont.offer with
  | none => exact h
  | some o =>
    dsimp only
    split
    · split
      · exact State.expel_discardLaw ..
      · exact h.congr (by simp) (by simp)
    · exact h

theorem execAbandon_discardLaw : AnswersDiscardLaw (execAbandon s) := by
  refine answers_next ?_
  cases s.abandonDue with
  | none => exact h
  | some src => exact (h.abandonSource src).raise _

end contentionCommands

section frameCommands
variable {s : State} (h : s.DiscardLaw)
include h

theorem execJoin_discardLaw (origin : Origin JoinBody) (a : Answers) : AnswersDiscardLaw (execJoin origin a s) := by
  refine answers_next ?_
  cases origin with
  | own => exact h.ownFrameEnds .join a fun src _ t ht => (ht.endSource src).readJoin a
  | heard hd b => exact h.receiveState ..

theorem execSyncReq_discardLaw (origin : Origin Unit) (a : Answers) : AnswersDiscardLaw (execSyncReq origin a s) := by
  refine answers_next ?_
  cases origin with
  | own => exact h.ownFrameEnds .syncReq a fun src _ t ht => ht.congr (by simp) (by simp)
  | heard hd b => exact h.receive .syncReq hd [] a none fun t ht => ht.congr (by simp) (by simp)

/-- A requesting station that hears a head of another configuration is refused (R114). -/
theorem execSnapHead_discardLaw (origin : Origin (List Byte)) (a : Answers) : AnswersDiscardLaw (execSnapHead origin a s) := by
  refine answers_next ?_
  cases origin with
  | own => exact h.ownFrameEnds .snapHead a fun src f t ht => ht.congr (by simp) (by simp)
  | heard hd body =>
    refine h.receive .snapHead hd body a none fun t ht => ?_
    have standDown : t.standDown.DiscardLaw := ht.congr (by simp) (by simp)
    split
    · exact standDown.openShadow hd.station body
    · exact standDown

theorem execSnapEntry_discardLaw (origin : Origin (List Byte)) (a : Answers) : AnswersDiscardLaw (execSnapEntry origin a s) := by
  refine answers_next ?_
  cases origin with
  | own => exact h.ownFrameEnds .snapEntry a fun src f t ht => ht.congr (by simp) (by simp)
  | heard hd body => exact h.receive .snapEntry hd body a none fun t ht => ht.congr (by simp) (by simp)

theorem execSnapTail_discardLaw (origin : Origin Word) (a : Answers) : AnswersDiscardLaw (execSnapTail origin a s) := by
  refine answers_next ?_
  cases origin with
  | own => exact h.ownFrameEnds .snapTail a fun src f t ht => ht.congr (by simp) (by simp)
  | heard hd check => exact h.receive .snapTail hd (wordBytes check) a none fun t ht => ht.takeTail hd.station check

end frameCommands

section eventCommands
variable {s : State} (h : s.DiscardLaw)
include h

/-- A falling edge reaches the line unit alone. -/
theorem execGlitch_discardLaw (slots : Nat) : AnswersDiscardLaw (execGlitch s slots) := by
  refine answers_next ?_
  repeat' split
  all_goals exact h.congr rfl rfl

theorem execHoldTimeout_discardLaw : AnswersDiscardLaw (execHoldTimeout s) := by
  refine answers_next ?_
  split
  · split
    · exact h.congr (by simp) (by simp)
    · exact h
  · exact h

end eventCommands

/-- Every command keeps the law, from any state: HARDWARE_RESET and RESTART empty the replica themselves. -/
theorem exec_discardLaw {s : State} (h : s.DiscardLaw) (c : Instr) : AnswersDiscardLaw (exec c s) := by
  cases c with
  | hardwareReset straps => exact answers_next (State.discardLaw_of_empty rfl)
  | readStatus spi | readEntry _ spi | readRoster spi => exact answers_next (h.transact spi fun after => h.shiftOut ..)
  | take spi => exact answers_next (h.transact spi fun after => h.congr rfl rfl)
  | takeRecordRemoval => exact execTakeRecordRemoval_discardLaw h
  | submit record spi => exact execSubmit_discardLaw h record spi
  | cancel tag spi => exact execCancel_discardLaw h tag spi
  | clearFlags _ spi | writeMasks _ _ spi => exact answers_next (h.transact spi fun after => h.congr rfl rfl)
  | writeConfig offset count data spi => exact execWriteConfig_discardLaw h offset count data spi
  | start spi => exact execStart_discardLaw h spi
  | portLeave spi => exact execPortLeave_discardLaw h spi
  | rejoin spi => exact execRejoin_discardLaw h spi
  | restart spi => exact execRestart_discardLaw h spi
  | unknownTransactionCode code spi => exact execUnknownTransactionCode_discardLaw h code spi
  | transactionCutShort bytes spi => exact execTransactionCutShort_discardLaw h bytes spi
  | offer => exact execOffer_discardLaw h
  | arbitrationLost slot => exact execArbitrationLost_discardLaw h slot
  | arbitrationPassed => exact answers_next (h.congr (by simp) (by simp))
  | bitError slot => exact execBitError_discardLaw h slot
  | join origin a => exact execJoin_discardLaw h origin a
  | leave | heartbeat | reap | claim | release | withdraw | downgrade => exact answers_next (h.stateFrameEnds ..)
  | syncReq origin a => exact execSyncReq_discardLaw h origin a
  | snapHead origin a => exact execSnapHead_discardLaw h origin a
  | snapEntry origin a => exact execSnapEntry_discardLaw h origin a
  | snapTail origin a => exact execSnapTail_discardLaw h origin a
  | holdTimeout => exact execHoldTimeout_discardLaw h
  | formatError | truncation =>
    refine answers_next ?_
    split
    · exact h
    · exact h.congr (by simp) (by simp)
  | receiveOverrun | roundEnd | leaseExpired | heartbeatDue | retryTimerExpiry | waitTimerExpiry =>
    refine answers_next ?_
    split
    · exact h.congr (by simp) (by simp)
    · exact h
  | joinWaitElapsed | enterMuted | recovery =>
    refine answers_next ?_
    split
    · exact State.discardLaw_of_not_ended rfl
    · exact h
  | abandon => exact execAbandon_discardLaw h
  | glitch slots => exact execGlitch_discardLaw h slots

/-- A command that takes the station into an end state has discarded the replica. -/
theorem exec_empties_on_entry {c : Instr} {s t : State} (hx : exec c s = .next t) (hs : s.ctl.state.ended = false)
    (ht : t.ctl.state.ended = true) : t.replica = Replica.empty := by
  obtain ⟨u, hu, law⟩ := exec_discardLaw (State.discardLaw_of_not_ended hs) c
  obtain rfl : t = u := Host.Outcome.next.inj (hx.symm.trans hu)
  exact law.empty_of_ended ht

/-- RESTART past OFFLINE answers the restarted state behind its status (R136, R167). -/
theorem exec_restart_of_started (after : Nat) {s : State} (h : s.ctl.state ≠ .offline) :
    exec (.restart (.clocked after)) s = .next (s.answerStatus 0 after .accepted s.restarted) := by
  simp [exec, execRestart, h]

/-- Settles O4: hardware reset and RESTART write the empty form, and the discard law holds across every command. -/
theorem replicaIsEmptyAfterResetRestartAndDiscard : Obligations.ReplicaIsEmptyAfterResetRestartAndDiscard := by
  unfold Obligations.ReplicaIsEmptyAfterResetRestartAndDiscard
  refine ⟨fun straps s => ⟨_, rfl, Replica.empty_isEmptyForm⟩,
    fun after s hs => ⟨_, exec_restart_of_started after hs, Replica.empty_isEmptyForm⟩, fun c s t hx hs ht => ?_⟩
  rw [exec_empties_on_entry hx hs ht]
  exact Replica.empty_isEmptyForm

end Sys2Proof.Machine
end

section
/-! The host port's family. The station number (R166), the masks and SUMMARY (R172), and the port after each reset (R174). -/

namespace Sys2Proof.Machine

/-! ### RESTART and REJOIN as the port answers them -/

/-- RESTART is refused in OFFLINE and changes nothing there (R136, R167). -/
theorem exec_restart_of_offline (after : Nat) {s : State} (h : s.ctl.state = .offline) :
    exec (.restart (.clocked after)) s = .next (s.answerStatus 0 after .wrongState s) := by
  simp [exec, execRestart, State.transact, h]

/-- REJOIN from an end state answers the station entering LISTENING (R135, R167). -/
theorem exec_rejoin_of_ended (after : Nat) {s : State} (h : s.ctl.state.ended = true) :
    exec (.rejoin (.clocked after)) s = .next (s.answerStatus 0 after .accepted s.enterListening) := by
  simp [exec, execRejoin, State.transact, h]

/-- REJOIN is refused outside the end states and changes nothing there (R135, R167). -/
theorem exec_rejoin_of_not_ended (after : Nat) {s : State} (h : s.ctl.state.ended = false) :
    exec (.rejoin (.clocked after)) s = .next (s.answerStatus 0 after .wrongState s) := by
  simp [exec, execRejoin, State.transact, h]

/-- Settles O7: hardware reset and RESTART give one state each; REJOIN is split on whether it is taken. -/
theorem portStateAfterEachReset : Obligations.PortStateAfterEachReset := by
  unfold Obligations.PortStateAfterEachReset
  refine ⟨fun straps s => ?_, fun after s hs => ?_, fun after s => ?_⟩
  · exact ⟨_, rfl, rfl, rfl, rfl, rfl, rfl, rfl, rfl, rfl, rfl, rfl, rfl, Replica.empty_isEmptyForm⟩
  · exact ⟨_, exec_restart_of_started after hs, rfl, rfl, rfl, rfl, rfl, rfl, rfl, rfl, rfl, rfl, rfl, Replica.empty_isEmptyForm⟩
  · cases h : s.ctl.state.ended with
    | true => exact ⟨_, exec_rejoin_of_ended after h, rfl, rfl, rfl, rfl, rfl, rfl, fun _ => ⟨rfl, rfl⟩, rfl, rfl, rfl⟩
    | false => exact ⟨_, exec_rejoin_of_not_ended after h, rfl, rfl, rfl, rfl, rfl, rfl, nofun, rfl, rfl, rfl⟩

/-! ### SUMMARY -/

/-- The flags of Table 9-7 stand at bits 0 to 10, and each of these bits is a flag's. -/
theorem EventFlag.exists_bit_iff (i : Nat) : (∃ f : EventFlag, f.bit = i) ↔ i < 11 := by
  constructor
  · rintro ⟨f, rfl⟩
    cases f <;> decide
  · intro h
    have every : [EventFlag.founded, .regained, .lostStep, .muted, .trainLost, .evicted, .refused, .clash, .peerJoined, .peerLapsed,
        .mediumFault].map EventFlag.bit = List.range 11 := rfl
    obtain ⟨f, -, hf⟩ := List.mem_map.1 (every ▸ List.mem_range.2 h)
    exact ⟨f, hf⟩

/-- The mask of the flag bits has bits 0 to 10 set. -/
theorem getLsbD_flagBits (i : Nat) : (0x07FF#16).getLsbD i = decide (i < 11) := by
  rw [show 0x07FF#16 = (BitVec.allOnes 11).setWidth 16 from rfl, BitVec.getLsbD_setWidth, BitVec.getLsbD_allOnes]
  by_cases h : i < 11
  · simp [h, show i < 16 by omega]
  · simp [h]

/-- A word is not zero exactly when one of its bits is 1. -/
theorem Word.ne_zero_iff (w : Word) : w ≠ 0#16 ↔ ∃ i, w.getLsbD i = true := by
  constructor
  · intro hw
    by_contra hn
    exact hw (BitVec.eq_of_getLsbD_eq fun i _ => by simpa using fun hi => hn ⟨i, hi⟩)
  · rintro ⟨i, hi⟩ rfl
    simp at hi

/-- SUMMARY is a set flag whose mask bit is 1 (R172). -/
theorem State.summary_iff (s : State) :
    s.summary = true ↔ ∃ f : EventFlag, s.port.flag f = true ∧ s.port.masks.getLsbD f.bit = true := by
  calc s.summary = true
    _ ↔ s.port.flags &&& s.port.masks &&& 0x07FF#16 ≠ 0#16 := by simp [State.summary]
    _ ↔ ∃ i, s.port.flags.getLsbD i = true ∧ s.port.masks.getLsbD i = true ∧ ∃ f : EventFlag, f.bit = i := by
      simp only [Word.ne_zero_iff, BitVec.getLsbD_and, getLsbD_flagBits, EventFlag.exists_bit_iff, Bool.and_eq_true, decide_eq_true_eq,
        and_assoc]
    _ ↔ ∃ f : EventFlag, s.port.flag f = true ∧ s.port.masks.getLsbD f.bit = true := by
      constructor
      · rintro ⟨_, hf, hm, f, rfl⟩
        exact ⟨f, hf, hm⟩
      · rintro ⟨f, hf, hm⟩
        exact ⟨f.bit, hf, hm, f, rfl⟩

/-! ### WRITE_MASKS -/

/-- A whole transaction leaves its SDO bytes, CSn high and no capture, on the state it has run to (R159). -/
theorem State.shiftOut_eq (s t : State) (inputs after : Nat) (out : List Byte) :
    s.shiftOut inputs after out t =
      { t with port := { t.port with selected := none, sdo := s.sdoOf inputs after out, capture := none } } := by
  simp [State.shiftOut, State.sdoOf, State.shiftedHeader, outputBytes_eq]

/-- WRITE_MASKS writes the mask register and the notice enable and answers ACCEPTED, in whatever state the station is (R172). -/
theorem exec_writeMasks (m : Word) (n : Byte) (after : Nat) (s : State) :
    exec (.writeMasks m n (.clocked after)) s = .next
      { s with port := { s.port with masks := m, notice := n.getLsbD 0, selected := none, sdo := s.sdoOf 3 after [0x00#8],
                                     capture := none } } :=
  congrArg Host.Outcome.next (s.shiftOut_eq { s with port := { s.port with masks := m, notice := n.getLsbD 0 } } 3 after [0x00#8])

/-- Settles O14: SUMMARY bit by bit; WRITE_MASKS and the resets from their answers. -/
theorem masksEnableFlagsForSummary : Obligations.MasksEnableFlagsForSummary := by
  unfold Obligations.MasksEnableFlagsForSummary
  refine ⟨fun m n after s => ⟨_, exec_writeMasks m n after s, rfl⟩, State.summary_iff, fun straps s => ⟨_, rfl, rfl, rfl⟩,
    fun after s => ?_, fun after s => ?_⟩
  · by_cases h : s.ctl.state = .offline
    · exact ⟨_, exec_restart_of_offline after h, rfl, rfl⟩
    · exact ⟨_, exec_restart_of_started after h, rfl, rfl⟩
  · cases h : s.ctl.state.ended with
    | true => exact ⟨_, exec_rejoin_of_ended after h, rfl, rfl⟩
    | false => exact ⟨_, exec_rejoin_of_not_ended after h, rfl, rfl⟩

/-! ### The station number through the shared operations -/

theorem State.transact_ctl_number {s : State} (spi : Spi) {run : Nat → State} (hr : ∀ after, (run after).ctl.number = s.ctl.number) :
    (s.transact spi run).ctl.number = s.ctl.number := by
  cases spi with
  | csnFalls => rfl
  | clocked after => exact hr after

@[simp] theorem State.applyFrame_ctl_number (s : State) (own : Bool) (tag : Option Byte) (sender : Station) (b : StateBody) :
    (s.applyFrame own tag sender b).ctl.number = s.ctl.number := by
  obtain ⟨u, hu, happly⟩ := s.applyFrame_eq own tag sender b
  rw [happly, ← hu]
  split
  · exact u.afterApply_ctl_number ..
  · rfl

@[simp] theorem State.heardClean_ctl_number (s : State) (k : FrameKind) (h : Head) (body : List Byte) (a : Answers)
    (answer : Option AnswerSlot) : (s.heardClean k h body a answer).ctl.number = s.ctl.number := by
  simp [State.heardClean]

/-- A frame heard keeps the number when its delivery does. -/
theorem State.receive_ctl_number (s : State) (k : FrameKind) (h : Head) (body : List Byte) (a : Answers) (answer : Option AnswerSlot)
    {deliver : State → State} (hd : ∀ t, (deliver t).ctl.number = t.ctl.number) :
    (s.receive k h body a answer deliver).ctl.number = s.ctl.number := by
  cases hs : s.canHear with
  | false => rw [s.receive_deaf k h body a answer deliver hs]
  | true =>
    cases hg : lenGood k body.length && bodyGood s.tableSize k body with
    | false => simp [s.receive_bad k h body a answer deliver hs hg]
    | true =>
      cases hr : a.reject with
      | true => simp [s.receive_rejected k h body a answer deliver hs hg hr]
      | false =>
        rw [s.receive_completed k h body a answer deliver hs hg hr]
        dsimp only
        split <;> simp [hd]

@[simp] theorem State.decideHeard_ctl_number (s : State) (h : Head) (a : Answers) (agrees : Bool) (b : StateBody) :
    (s.decideHeard h a agrees b).ctl.number = s.ctl.number := by
  unfold State.decideHeard
  repeat' split
  all_goals simp

/-- An own frame's end keeps the number when its completion does. -/
theorem State.ownFrameEnds_ctl_number (s : State) (k : FrameKind) (a : Answers) {complete : OfferSource → TxFrame → State → State}
    (hc : ∀ src f t, (complete src f t).ctl.number = t.ctl.number) : (s.ownFrameEnds k a complete).ctl.number = s.ctl.number := by
  unfold State.ownFrameEnds
  cases s.cont.offer with
  | none => rfl
  | some o =>
    dsimp only
    repeat' split
    all_goals simp [hc]

@[simp] theorem State.decideOwn_ctl_number (s : State) (a : Answers) (src : OfferSource) (b : StateBody) :
    (s.decideOwn a src b).ctl.number = s.ctl.number := by
  unfold State.decideOwn
  repeat' split
  all_goals simp

@[simp] theorem State.stateFrameEnds_ctl_number (s : State) {β : Type} (k : FrameKind) (origin : Origin β) (a : Answers)
    (bytes : β → List Byte) (body : β → StateBody) (tx : List Byte → StateBody) :
    (s.stateFrameEnds k origin a bytes body tx).ctl.number = s.ctl.number := by
  cases origin with
  | own => exact s.ownFrameEnds_ctl_number k a fun src f t => t.decideOwn_ctl_number ..
  | heard h b => exact s.receive_ctl_number k h _ a _ fun t => t.decideHeard_ctl_number ..

@[simp] theorem State.openShadow_ctl_number (s : State) (source : Station) (body : List Byte) :
    (s.openShadow source body).ctl.number = s.ctl.number := by
  unfold State.openShadow
  dsimp only
  repeat' split
  all_goals simp

/-! ### The station number through every command -/

/-- A command answers a next state with this station number. -/
def AnswersNumber (x : Station) (o : Host.Outcome State Fault Refusal) : Prop := ∃ t : State, o = .next t ∧ t.ctl.number = x

theorem answersNumber_next {x : Station} {t : State} (h : t.ctl.number = x) : AnswersNumber x (.next t) := ⟨t, rfl, h⟩

/-- A transaction whose runs keep the number. -/
theorem answersNumber_transact {s : State} (spi : Spi) {run : Nat → State} (hr : ∀ after, (run after).ctl.number = s.ctl.number) :
    AnswersNumber s.ctl.number (.next (s.transact spi run)) := answersNumber_next (State.transact_ctl_number spi hr)

section portCommands
variable (s : State)

theorem execSubmit_keeps_number (r : RequestRecord) (spi : Spi) : AnswersNumber s.ctl.number (execSubmit r s spi) := by
  refine answersNumber_transact spi fun after => ?_
  rw [State.answerStatus_ctl]
  split <;> simp

theorem execUnknownTransactionCode_keeps_number (code : Byte) (spi : Spi) :
    AnswersNumber s.ctl.number (execUnknownTransactionCode code spi s) := by
  refine answersNumber_next ?_
  split
  · rfl
  · exact State.transact_ctl_number spi fun _ => rfl

theorem execTransactionCutShort_keeps_number (bytes : List Byte) (spi : Spi) :
    AnswersNumber s.ctl.number (execTransactionCutShort bytes s spi) := by
  refine answersNumber_next ?_
  split
  · refine State.transact_ctl_number spi fun _ => ?_
    cases bytes with
    | nil => rfl
    | cons _ rest => rfl
  · rfl

end portCommands

section frameCommands
variable (s : State)

theorem execJoin_keeps_number (origin : Origin JoinBody) (a : Answers) : AnswersNumber s.ctl.number (execJoin origin a s) := by
  refine answersNumber_next ?_
  cases origin with
  | own => exact s.ownFrameEnds_ctl_number .join a fun src _ t => by simp
  | heard h b => exact s.receive_ctl_number .join h _ a _ fun t => t.decideHeard_ctl_number ..

theorem execSyncReq_keeps_number (origin : Origin Unit) (a : Answers) : AnswersNumber s.ctl.number (execSyncReq origin a s) := by
  refine answersNumber_next ?_
  cases origin with
  | own => exact s.ownFrameEnds_ctl_number .syncReq a fun src _ t => by simp
  | heard h b => exact s.receive_ctl_number .syncReq h _ a _ fun t => by simp

theorem execSnapHead_keeps_number (origin : Origin (List Byte)) (a : Answers) :
    AnswersNumber s.ctl.number (execSnapHead origin a s) := by
  refine answersNumber_next ?_
  cases origin with
  | own => exact s.ownFrameEnds_ctl_number .snapHead a fun src f t => by simp
  | heard h body => exact s.receive_ctl_number .snapHead h body a _ fun t => by split <;> simp

theorem execSnapEntry_keeps_number (origin : Origin (List Byte)) (a : Answers) :
    AnswersNumber s.ctl.number (execSnapEntry origin a s) := by
  refine answersNumber_next ?_
  cases origin with
  | own => exact s.ownFrameEnds_ctl_number .snapEntry a fun src f t => by simp
  | heard h body => exact s.receive_ctl_number .snapEntry h body a _ fun t => by simp

theorem execSnapTail_keeps_number (origin : Origin Word) (a : Answers) : AnswersNumber s.ctl.number (execSnapTail origin a s) := by
  refine answersNumber_next ?_
  cases origin with
  | own => exact s.ownFrameEnds_ctl_number .snapTail a fun src _ t => by simp
  | heard h check => exact s.receive_ctl_number .snapTail h _ a _ fun t => by simp

end frameCommands

/-- No command but HARDWARE_RESET writes the station number (R166). -/
theorem exec_keeps_number {c : Instr} (hc : ∀ straps, c ≠ .hardwareReset straps) (s : State) :
    AnswersNumber s.ctl.number (exec c s) := by
  cases c with
  | hardwareReset straps => exact absurd rfl (hc straps)
  | readStatus spi | readEntry _ spi | readRoster spi | take spi | clearFlags _ spi | writeMasks _ _ spi =>
    exact answersNumber_transact spi fun _ => rfl
  | cancel _ spi | writeConfig _ _ _ spi | start spi | portLeave spi | rejoin spi | restart spi =>
    refine answersNumber_transact spi fun after => ?_
    repeat' split
    all_goals simp
  | submit record spi => exact execSubmit_keeps_number s record spi
  | unknownTransactionCode code spi => exact execUnknownTransactionCode_keeps_number s code spi
  | transactionCutShort bytes spi => exact execTransactionCutShort_keeps_number s bytes spi
  | arbitrationPassed => exact answersNumber_next (by simp)
  | join origin a => exact execJoin_keeps_number s origin a
  | leave | heartbeat | reap | claim | release | withdraw | downgrade => exact answersNumber_next (s.stateFrameEnds_ctl_number ..)
  | syncReq origin a => exact execSyncReq_keeps_number s origin a
  | snapHead origin a => exact execSnapHead_keeps_number s origin a
  | snapEntry origin a => exact execSnapEntry_keeps_number s origin a
  | snapTail origin a => exact execSnapTail_keeps_number s origin a
  | takeRecordRemoval | offer | arbitrationLost | bitError | formatError | truncation | receiveOverrun | roundEnd | holdTimeout
  | leaseExpired | heartbeatDue | retryTimerExpiry | joinWaitElapsed | waitTimerExpiry | abandon | enterMuted | recovery | glitch =>
    refine answersNumber_next ?_
    repeat' split
    all_goals simp

/-- Nor does the part's own turn (R166). -/
theorem State.tick_ctl_number (s : State) : s.tick.ctl.number = s.ctl.number := by
  unfold State.tick
  repeat' split
  all_goals simp

theorem step_of_pending_nil {s : State} (h : s.pending = []) : step s = .next s.tick := by
  simp [step, h]

/-! ### The station number in READ_STATUS -/

/-- A byte of the output that is clocked out is shifted out at its place. -/
theorem outputBytes_getElem? {after i : Nat} {out : List Byte} (ha : i < after) (ho : i < out.length) :
    (outputBytes after out)[i]? = out[i]? := by
  rw [outputBytes_eq, List.getElem?_append_left (by simp; omega), List.getElem?_take_of_lt ha]

/-- Byte 1 of READ_STATUS is the station number (Table 9-4). -/
theorem State.statusBytes_number (s : State) : s.statusBytes[1]? = some (BitVec.ofNat 8 s.ctl.number.val) := by
  simp [State.statusBytes]

/-- The output bytes of a read without input follow the header byte on SDO (R159). -/
theorem State.shiftOut_sdo_getElem? (s t : State) {after i : Nat} {out : List Byte} (ha : i < after) (ho : i < out.length) :
    (s.shiftOut 0 after out t).port.sdo[i + 1]? = out[i]? := by
  simp [State.shiftOut, outputBytes_getElem? ha ho]

/-- Settles O6: the frame of the number command by command, and the byte of READ_STATUS that reports it. -/
theorem stationNumberIsTheStrapsUntilTheNextReset : Obligations.StationNumberIsTheStrapsUntilTheNextReset := by
  unfold Obligations.StationNumberIsTheStrapsUntilTheNextReset
  refine ⟨fun straps s => ⟨_, rfl, rfl⟩, fun c s t hc hx => ?_, fun s hs => ⟨_, step_of_pending_nil hs, s.tick_ctl_number⟩,
    fun after s ha => ⟨_, rfl, ?_⟩⟩
  · obtain ⟨u, hu, kept⟩ := exec_keeps_number hc s
    obtain rfl : t = u := Host.Outcome.next.inj (hx.symm.trans hu)
    exact kept
  · have hlen : 1 < s.statusBytes.length := (List.getElem?_eq_some_iff.1 s.statusBytes_number).1
    exact (s.shiftOut_sdo_getElem? s ha hlen).trans s.statusBytes_number

end Sys2Proof.Machine
end

section
/-! What one command can do to a station, said once for all the laws that every step keeps: bookkeeping that no law reads, and a short list
of changes that a law does read. -/

namespace Sys2Proof.Machine

/-! ### Bookkeeping -/

/-- A change of contexts that keeps what the laws read of one: its tag, its resource, and whether it is DONE, WAITING or WITHDRAWING. -/
structure Context.Report (f : Context → Context) : Prop where
  tag : ∀ c, (f c).tag = c.tag
  resource : ∀ c, (f c).resource = c.resource
  done : ∀ c, (f c).state = .done ↔ c.state = .done
  waiting : ∀ c, (f c).state = .waiting ↔ c.state = .waiting
  withdrawing : ∀ c, (f c).state = .withdrawing ↔ c.state = .withdrawing

/-- What the law of the send list reads of an entry. -/
def SendEntry.key (e : SendEntry) : SendKind × Byte × Byte := (e.kind, e.tag, e.resource)

/-- No station-frame count has passed its limit (R84). -/
def AttemptCounts.Bounded (a : AttemptCounts) : Prop :=
  a.train ≤ Config.attemptLimit ∧ a.syncReq ≤ Config.attemptLimit ∧ a.join ≤ Config.attemptLimit ∧ a.leave ≤ Config.attemptLimit ∧
  a.heartbeat ≤ Config.attemptLimit ∧ a.reap ≤ Config.attemptLimit

/-- The attempt counts of a contention unit are within their limits. -/
def ContentionUnit.Bounded (c : ContentionUnit) : Prop :=
  (∀ e ∈ c.sendList, e.attempts ≤ Config.attemptLimit) ∧ c.attempts.Bounded

/-- The counts of a station controller are within their limits, and a MUTED one's reject count stands at its limit (R99, R100). -/
def StationController.Bounded (c : StationController) : Prop :=
  c.rejectCount ≤ Config.rejectLimit ∧ c.cleanCount ≤ Config.cleanLimit ∧ (c.state = .muted → c.rejectCount = Config.rejectLimit)

theorem State.countLaw_iff (s : State) : s.countLaw ↔ s.ctl.Bounded ∧ s.cont.Bounded := by
  unfold State.countLaw StationController.Bounded ContentionUnit.Bounded AttemptCounts.Bounded
  tauto

/-- `t` is `s` after bookkeeping: the replica, the station state and number, the settings of the port and the queue of commands stay, flags
are only set, contexts only report, the send list only loses entries, no offer begins in OFFLINE, and the laws of the line and of the counts are not broken. -/
structure State.Quiet (s t : State) : Prop where
  port : t.port = { s.port with flags := t.port.flags }
  flags : ∀ f, s.port.flag f = true → t.port.flag f = true
  number : t.ctl.number = s.ctl.number
  state : t.ctl.state = s.ctl.state
  replica : t.replica = s.replica
  req : ∃ f, Context.Report f ∧ t.req = { s.req with contexts := s.req.contexts.map f }
  sendList : (t.cont.sendList.map SendEntry.key).Sublist (s.cont.sendList.map SendEntry.key)
  shadow : ∀ sh, t.sync.shadow = some sh →
    sh.poolInUse ≤ Config.poolSize ∨ ∃ sh', s.sync.shadow = some sh' ∧ sh'.poolInUse = sh.poolInUse
  offer : s.ctl.state = .offline → s.cont.offer = none → t.cont.offer = none
  pending : t.pending = s.pending
  lineKept : s.lineLaw → t.lineLaw
  countKept : s.countLaw → t.countLaw

theorem Context.Report.id : Context.Report id := ⟨fun _ => rfl, fun _ => rfl, fun _ => Iff.rfl, fun _ => Iff.rfl, fun _ => Iff.rfl⟩

theorem Context.Report.comp {f g : Context → Context} (hf : Context.Report f) (hg : Context.Report g) : Context.Report (f ∘ g) :=
  ⟨fun c => (hf.tag _).trans (hg.tag c), fun c => (hf.resource _).trans (hg.resource c), fun c => (hf.done _).trans (hg.done c),
    fun c => (hf.waiting _).trans (hg.waiting c), fun c => (hf.withdrawing _).trans (hg.withdrawing c)⟩

/-- A report of the context with one tag. -/
theorem Context.Report.restrict {f : Context → Context} (hf : Context.Report f) (p : Context → Bool) :
    Context.Report fun c => if p c then f c else c := by
  refine ⟨fun c => ?_, fun c => ?_, fun c => ?_, fun c => ?_, fun c => ?_⟩ <;> split
  · exact hf.tag c
  · rfl
  · exact hf.resource c
  · rfl
  · exact hf.done c
  · rfl
  · exact hf.waiting c
  · rfl
  · exact hf.withdrawing c
  · rfl

theorem Context.offered_report : Context.Report Context.offered := by
  refine ⟨by simp, by simp, ?_, ?_, ?_⟩ <;> intro c <;> unfold Context.offered <;> split <;> simp_all

theorem Context.passed_report : Context.Report Context.passed := by
  refine ⟨by simp, by simp, ?_, ?_, ?_⟩ <;> intro c <;> unfold Context.passed <;> split <;> simp_all

theorem Context.failed_report : Context.Report Context.failed := by
  refine ⟨by simp, by simp, ?_, ?_, ?_⟩ <;> intro c <;> unfold Context.failed <;> split <;> simp_all

theorem Context.stale_report : Context.Report Context.stale := by
  refine ⟨by simp, by simp, ?_, ?_, ?_⟩ <;> intro c <;> unfold Context.stale <;> split <;> simp_all

theorem Context.mark_report (k : Cause) : Context.Report fun c => c.mark k :=
  ⟨fun _ => rfl, fun _ => rfl, fun _ => Iff.rfl, fun _ => Iff.rfl, fun _ => Iff.rfl⟩

theorem State.Quiet.refl (s : State) : s.Quiet s :=
  ⟨rfl, fun _ h => h, rfl, rfl, rfl, ⟨id, .id, by simp⟩, List.Sublist.refl _, fun sh h => .inr ⟨sh, h, rfl⟩, fun _ h => h, rfl,
    fun h => h, fun h => h⟩

theorem State.Quiet.trans {s t u : State} (h : s.Quiet t) (k : t.Quiet u) : s.Quiet u where
  port := by rw [k.port, h.port]
  flags f hf := k.flags f (h.flags f hf)
  number := k.number.trans h.number
  state := k.state.trans h.state
  replica := k.replica.trans h.replica
  req := by
    obtain ⟨f, hf, hreq⟩ := h.req
    obtain ⟨g, hg, kreq⟩ := k.req
    exact ⟨g ∘ f, hg.comp hf, by rw [kreq, hreq]; simp⟩
  sendList := k.sendList.trans h.sendList
  shadow sh hsh := by
    rcases k.shadow sh hsh with hb | ⟨sh', hsh', hp⟩
    · exact .inl hb
    · rcases h.shadow sh' hsh' with hb | ⟨sh'', hsh'', hp'⟩
      · exact .inl (hp ▸ hb)
      · exact .inr ⟨sh'', hsh'', hp'.trans hp⟩
  offer hst ho := k.offer (h.state.trans hst) (h.offer hst ho)
  pending := k.pending.trans h.pending
  lineKept hl := k.lineKept (h.lineKept hl)
  countKept hc := k.countKept (h.countKept hc)

/-! What of the line law depends on. -/

theorem State.lineLaw_of_idle {s : State} (h : s.line.idleCount = 0) : s.lineLaw := fun _ => h

/-- With the same line and no offer begun the line law is kept. -/
theorem State.lineLaw_congr {s t : State} (hst : t.ctl.state = .offline → s.ctl.state = .offline) (hline : t.line = s.line)
    (hoffer : t.cont.offer = none ∨ t.cont.offer = s.cont.offer) (h : s.lineLaw) : t.lineLaw := by
  unfold State.lineLaw State.frameInProgress at *
  rw [hline]
  rintro (ho | hf | hd)
  · exact h (.inl (hst ho))
  · refine h (.inr (.inl ?_))
    rcases hoffer with he | he
    · rw [he] at hf; simp at hf; simp [hf]
    · rwa [he] at hf
  · exact h (.inr (.inr hd))

/-- Bookkeeping of the contention unit, the lease unit, the sync unit and the line. -/
theorem State.Quiet.of_rest {s t : State} (lineKept : s.lineLaw → t.lineLaw) (sendList : t.cont.sendList.Sublist s.cont.sendList)
    (attempts : s.cont.attempts.Bounded → t.cont.attempts.Bounded) (shadow : t.sync.shadow = none ∨ t.sync.shadow = s.sync.shadow)
    (offer : t.cont.offer = none ∨ t.cont.offer = s.cont.offer)
    (port : t.port = s.port := by simp) (ctl : t.ctl = s.ctl := by simp) (replica : t.replica = s.replica := by simp)
    (req : t.req = s.req := by simp) (pending : t.pending = s.pending := by simp) : s.Quiet t where
  port := by rw [port]
  flags f hf := by rwa [port]
  number := by rw [ctl]
  state := by rw [ctl]
  replica := replica
  req := ⟨id, .id, by rw [req]; simp⟩
  sendList := sendList.map _
  shadow sh hsh := by
    rcases shadow with h | h
    · simp [h] at hsh
    · exact .inr ⟨sh, by rw [← h, hsh], rfl⟩
  offer _ ho := offer.elim (fun h => h) fun h => h.trans ho
  pending := pending
  lineKept := lineKept
  countKept := by
    rw [State.countLaw_iff, State.countLaw_iff, ctl]
    rintro ⟨hc, hl, ha⟩
    exact ⟨hc, fun e he => hl e (sendList.subset he), attempts ha⟩

/-- The same, where the line stays. -/
theorem State.Quiet.of_rest_line {s t : State} (sendList : t.cont.sendList.Sublist s.cont.sendList)
    (attempts : s.cont.attempts.Bounded → t.cont.attempts.Bounded) (shadow : t.sync.shadow = none ∨ t.sync.shadow = s.sync.shadow)
    (offer : t.cont.offer = none ∨ t.cont.offer = s.cont.offer) (line : t.line = s.line := by simp)
    (port : t.port = s.port := by simp) (ctl : t.ctl = s.ctl := by simp) (replica : t.replica = s.replica := by simp)
    (req : t.req = s.req := by simp) (pending : t.pending = s.pending := by simp) : s.Quiet t :=
  .of_rest (State.lineLaw_congr (by rw [ctl]; exact fun h => h) line offer) sendList attempts shadow offer port ctl replica req pending

/-- The same, where the contention unit stays. -/
theorem State.Quiet.of_rest_cont {s t : State} (shadow : t.sync.shadow = none ∨ t.sync.shadow = s.sync.shadow)
    (cont : t.cont = s.cont := by simp) (line : t.line = s.line := by simp)
    (port : t.port = s.port := by simp) (ctl : t.ctl = s.ctl := by simp) (replica : t.replica = s.replica := by simp)
    (req : t.req = s.req := by simp) (pending : t.pending = s.pending := by simp) : s.Quiet t :=
  .of_rest_line (by rw [cont]) (by rw [cont]; exact fun h => h) shadow (by rw [cont]; exact .inr rfl) line port ctl replica req pending

/-- A flag is raised. -/
theorem State.raise_quiet (s : State) (f : EventFlag) : s.Quiet (s.raise f) where
  port := rfl
  flags g hg := by simp [hg]
  number := rfl
  state := rfl
  replica := rfl
  req := ⟨id, .id, by simp⟩
  sendList := by simp
  shadow sh h := .inr ⟨sh, h, rfl⟩
  offer _ h := h
  pending := rfl
  lineKept h := h
  countKept h := h

/-- Contexts report. -/
theorem State.report_quiet (s : State) {f : Context → Context} (hf : Context.Report f) :
    s.Quiet { s with req := { s.req with contexts := s.req.contexts.map f } } where
  port := rfl
  flags _ hg := hg
  number := rfl
  state := rfl
  replica := rfl
  req := ⟨f, hf, rfl⟩
  sendList := by simp
  shadow sh h := .inr ⟨sh, h, rfl⟩
  offer _ h := h
  pending := rfl
  lineKept h := h
  countKept h := h

theorem State.update_quiet (s : State) (tag : Byte) {f : Context → Context} (hf : Context.Report f) :
    s.Quiet { s with req := s.req.update tag f } := s.report_quiet (hf.restrict fun c => c.tag == tag)

/-- A station controller counts or notes something, in the same state. -/
theorem State.ctl_quiet (s : State) {c : StationController} (number : c.number = s.ctl.number) (state : c.state = s.ctl.state)
    (bounded : s.ctl.Bounded → c.Bounded) : s.Quiet { s with ctl := c } where
  port := rfl
  flags _ hg := hg
  number := number
  state := state
  replica := rfl
  req := ⟨id, .id, by simp⟩
  sendList := by simp
  shadow sh h := .inr ⟨sh, h, rfl⟩
  offer _ h := h
  pending := rfl
  lineKept h := State.lineLaw_congr (s := s) (fun h => state ▸ h) rfl (.inr rfl) h
  countKept := by
    rw [State.countLaw_iff, State.countLaw_iff]
    exact fun ⟨hc, hr⟩ => ⟨bounded hc, hr⟩

/-! ### Bookkeeping, operation by operation -/

/-- An offer is stopped or stays. -/
theorem Option.filter_none_or_self {α : Type} (o : Option α) (p : α → Bool) : o.filter p = none ∨ o.filter p = o := by
  cases o with
  | none => exact .inl rfl
  | some a => cases h : p a <;> simp [Option.filter, h]

theorem ContentionUnit.stopArbitration_offer_cases (c : ContentionUnit) (p : OfferSource → Bool) :
    (c.stopArbitration p).offer = none ∨ (c.stopArbitration p).offer = c.offer := Option.filter_none_or_self ..

theorem ContentionUnit.removeEntries_sublist (c : ContentionUnit) (p : Byte → Bool) : (c.removeEntries p).sendList.Sublist c.sendList :=
  List.filter_sublist

theorem AttemptCounts.zero_bounded : AttemptCounts.zero.Bounded := by simp [AttemptCounts.Bounded, AttemptCounts.zero]

theorem bump_le (n : Nat) : bump n ≤ Config.attemptLimit := Nat.min_le_left ..

/-- The contention unit alone changes: entries leave the send list, the offer is stopped or stays, counts stay within their limits. -/
theorem State.cont_quiet (s : State) {c : ContentionUnit} (sendList : c.sendList.Sublist s.cont.sendList)
    (attempts : s.cont.attempts.Bounded → c.attempts.Bounded) (offer : c.offer = none ∨ c.offer = s.cont.offer) :
    s.Quiet { s with cont := c } :=
  .of_rest_line sendList attempts (.inr rfl) offer rfl rfl rfl rfl rfl rfl

theorem State.loseArbitration_quiet (s : State) : s.Quiet { s with cont := s.cont.loseArbitration } :=
  s.cont_quiet (List.Sublist.refl _) (fun h => h) (s.cont.stopArbitration_offer_cases _)

theorem State.clearOffer_quiet (s : State) : s.Quiet s.clearOffer := s.cont_quiet (List.Sublist.refl _) (fun h => h) (.inl rfl)

theorem State.removeEntries_quiet (s : State) (p : Byte → Bool) : s.Quiet { s with cont := s.cont.removeEntries p } :=
  s.cont_quiet (s.cont.removeEntries_sublist p) (fun h => h)
    (({ s.cont with sendList := s.cont.sendList.filter fun e => !p e.tag } : ContentionUnit).stopArbitration_offer_cases _)

theorem State.frameEnds_quiet (s : State) (rx : RxBuffer) (acc : Word) (answer : Option AnswerSlot) :
    s.Quiet (s.frameEnds rx acc answer) :=
  .of_rest (fun _ => State.lineLaw_of_idle rfl) (by simp) (by simp) (by simp) (.inr (by simp))

theorem State.setLease_quiet (s : State) (x : Station) (us : Nat) : s.Quiet (s.setLease x us) := .of_rest_cont (.inr (by simp))

/-- The count of a REAP restarts when its target leaves the reap set. -/
theorem State.dropReap_attempts_bounded (s : State) (x : Station) (h : s.cont.attempts.Bounded) : (s.dropReap x).cont.attempts.Bounded := by
  obtain ⟨ht, hs, hj, hl, hh, hr⟩ := h
  unfold State.dropReap
  dsimp only
  split
  · exact ⟨ht, hs, hj, hl, hh, Nat.zero_le _⟩
  · exact ⟨ht, hs, hj, hl, hh, hr⟩

theorem State.dropReap_quiet (s : State) (x : Station) : s.Quiet (s.dropReap x) :=
  .of_rest_line (by simp) (s.dropReap_attempts_bounded x) (.inr (by rfl)) (by simp)

theorem State.hear_quiet (s : State) (x : Station) : s.Quiet (s.hear x) := (s.setLease_quiet x s.leaseUs).trans (State.dropReap_quiet ..)

theorem State.countClean_quiet (s : State) : s.Quiet s.countClean := by
  unfold State.countClean
  split
  case isTrue hm => exact s.ctl_quiet rfl rfl fun ⟨hr, _, hmr⟩ => ⟨hr, Nat.min_le_left .., hmr⟩
  case isFalse hm => exact s.ctl_quiet rfl rfl fun ⟨_, hc, _⟩ => ⟨Nat.zero_le _, hc, fun h => absurd h hm⟩

theorem State.countBad_quiet (s : State) (rejected : Bool) : s.Quiet (s.countBad rejected) := by
  unfold State.countBad
  split
  case isTrue hm => exact s.ctl_quiet rfl rfl fun ⟨hr, _, hmr⟩ => ⟨hr, Nat.zero_le _, hmr⟩
  case isFalse hm =>
    split
    · exact s.ctl_quiet rfl rfl fun ⟨_, hc, _⟩ => ⟨Nat.min_le_left .., hc, fun h => absurd h hm⟩
    · exact .refl s

theorem State.badFrame_quiet (s : State) (acc : Word) : s.Quiet (s.badFrame acc) :=
  (s.loseArbitration_quiet.trans (State.frameEnds_quiet ..)).trans (State.countBad_quiet ..)

theorem State.heardClean_quiet (s : State) (k : FrameKind) (h : Head) (body : List Byte) (a : Answers) (answer : Option AnswerSlot) :
    s.Quiet (s.heardClean k h body a answer) :=
  ((s.loseArbitration_quiet.trans (State.frameEnds_quiet ..)).trans (State.hear_quiet ..)).trans (State.countClean_quiet _)

theorem State.endTrain_quiet (s : State) : s.Quiet s.endTrain :=
  .of_rest_line (by simp) (fun ⟨_, hs, hj, hl, hh, hr⟩ => ⟨Nat.zero_le _, hs, hj, hl, hh, hr⟩) (.inr (by simp)) (.inr (by simp))

theorem State.dropShadow_quiet (s : State) : s.Quiet s.dropShadow :=
  .of_rest_line (by simp) (by simp) (.inl rfl) (.inr (by simp))

/-- One of two ways on. -/
theorem State.Quiet.ite {s t u : State} {p : Prop} [Decidable p] (ht : p → s.Quiet t) (hu : ¬ p → s.Quiet u) :
    s.Quiet (if p then t else u) := by
  split
  · exact ht ‹_›
  · exact hu ‹_›

theorem State.abandonHold_quiet (s : State) (holder : Station) : s.Quiet (s.abandonHold holder) := by
  have hold := s.cont_quiet (c := { s.cont with hold := none, silent := false }) (List.Sublist.refl _) (fun h => h) (.inr rfl)
  have train : ∀ u, s.Quiet u → s.Quiet (if u.serving then u.endTrain else u) := fun u hu => .ite (fun _ => hu.trans u.endTrain_quiet) fun _ => hu
  exact train _ (.ite (fun _ => (hold.trans (State.dropShadow_quiet _)).trans (State.raise_quiet ..)) fun _ => hold)

theorem State.followHold_bookkeeping (s : State) (sender : Station) (cont : Bool) : s.Quiet (s.followHold sender cont) := by
  have start : ∀ u, s.Quiet u → s.Quiet (if cont then { u with cont := { u.cont with hold := some sender } } else u) := fun u hu =>
    .ite (fun _ => hu.trans (u.cont_quiet (List.Sublist.refl _) (fun h => h) (.inr rfl))) fun _ => hu
  refine start _ ?_
  split
  · exact .refl s
  · refine .ite (fun _ => .ite (fun _ => .refl s) fun _ => ?_) fun _ => s.abandonHold_quiet _
    exact s.cont_quiet (List.Sublist.refl _) (fun h => h) (.inr rfl)

end Sys2Proof.Machine
end

section
/-! Bookkeeping in the frames, the trains and the timers. -/

namespace Sys2Proof.Machine

/-! ### The station's own frame -/

/-- A frame of the station's own is on the line, so the line law holds the idle count at zero already. -/
theorem State.idle_of_offer {s : State} {o : Offer} (h : s.lineLaw) (ho : s.cont.offer = some o) : s.line.idleCount = 0 :=
  h (.inr (.inl (by simp [State.frameInProgress, ho])))

theorem State.passArbitration_quiet (s : State) : s.Quiet s.passArbitration := by
  unfold State.passArbitration
  cases ho : s.cont.offer with
  | none => exact .refl s
  | some o =>
    dsimp only
    split
    case isFalse => exact .refl s
    case isTrue =>
      have sending : s.Quiet { s with cont := { s.cont with offer := some { o with phase := .sending } },
                                      line := s.line.sampled ((s.offerSlots o).take 6) } :=
        { State.Quiet.refl s with
          sendList := List.Sublist.refl _
          offer := fun _ h => by simp [ho] at h
          lineKept := fun h => State.lineLaw_of_idle (s.idle_of_offer h ho)
          countKept := fun h => h }
      split
      · exact sending.trans (State.update_quiet _ _ Context.passed_report)
      · exact sending

/-- A frame that ran to its last answer slot. -/
theorem State.ownFrameRan_quiet {s : State} (ho : s.cont.offer ≠ none) (o : Offer) (a : Answers) : s.Quiet (s.ownFrameRan o a) :=
  { s.frameEnds_quiet (.held { fields := o.frame.raw s.ctl.number, answers := a, sent := true }) (frameCheck (o.frame.raw s.ctl.number)) none with
    offer := fun _ h => absurd h ho
    lineKept := fun _ => State.lineLaw_of_idle rfl }

/-- An own frame of the kind offered, ended with REJECT dominant or recessive, by the state in which it was past arbitration. -/
theorem State.ownFrameEnds_ran (s : State) (o : Offer) (a : Answers) (complete : OfferSource → TxFrame → State → State)
    (ho : s.cont.offer = some o) :
    s.ownFrameEnds o.frame.kind a complete =
      if a.reject then ((s.passArbitration.ownFrameRan o a).failAttempt o.source).clearOffer
      else complete o.source o.frame ((s.passArbitration.ownFrameRan o a).followHold s.ctl.number o.frame.cont).clearOffer := by
  unfold State.ownFrameEnds State.ownFrameRan
  rw [ho]
  simp [State.frameEnds]

/-- The counts of the entries are changed, within their limit, and whether they are carried. -/
theorem State.entries_quiet (s : State) {l : List SendEntry} (key : l.map SendEntry.key = s.cont.sendList.map SendEntry.key)
    (bounded : (∀ e ∈ s.cont.sendList, e.attempts ≤ Config.attemptLimit) → ∀ e ∈ l, e.attempts ≤ Config.attemptLimit) :
    s.Quiet { s with cont := { s.cont with sendList := l } } :=
  { State.Quiet.refl s with
    sendList := by simp [key]
    lineKept := fun h => h
    countKept := by
      rw [State.countLaw_iff, State.countLaw_iff]
      exact fun ⟨hc, hl, ha⟩ => ⟨hc, bounded hl, ha⟩ }

theorem State.updateEntry_quiet (s : State) (tag : Byte) {f : SendEntry → SendEntry} (key : ∀ e, (f e).key = e.key)
    (bounded : ∀ e, (f e).attempts ≤ Config.attemptLimit) : s.Quiet { s with cont := s.cont.updateEntry tag f } := by
  refine s.entries_quiet ?_ fun h e he => ?_
  · rw [List.map_map]
    refine List.map_congr_left fun e _ => ?_
    simp only [Function.comp]
    split
    · exact key e
    · rfl
  · obtain ⟨d, hd, rfl⟩ := List.mem_map.1 he
    split
    · exact bounded d
    · exact h d hd

/-- The offer is still there when it has passed arbitration. -/
theorem State.passArbitration_offer_ne_none {s : State} (h : s.cont.offer ≠ none) : s.passArbitration.cont.offer ≠ none := by
  unfold State.passArbitration
  cases ho : s.cont.offer with
  | none => exact absurd ho h
  | some o =>
    dsimp only
    split
    · split <;> simp
    · simp [ho]

theorem State.endSource_quiet (s : State) (src : OfferSource) : s.Quiet (s.endSource src) := by
  cases src with
  | entry tag => exact s.removeEntries_quiet _
  | _ =>
    refine s.cont_quiet (List.Sublist.refl _) (fun ⟨ht, hs, hj, hl, hh, hr⟩ => ?_) (.inr rfl)
    simp_all [AttemptCounts.Bounded]

/-! ### Trains and timers -/

theorem State.restartHeartbeat_quiet (s : State) : s.Quiet s.restartHeartbeat := by
  refine .of_rest_line (by simp) (fun h => ?_) (.inr (by simp)) (.inr (by simp))
  unfold State.restartHeartbeat
  obtain ⟨ht, hs, hj, hl, hh, hr⟩ := h
  split
  · exact ⟨ht, hs, hj, hl, Nat.zero_le _, hr⟩
  · exact ⟨ht, hs, hj, hl, hh, hr⟩

theorem State.restartHeartbeatTimer_quiet (s : State) : s.Quiet s.restartHeartbeatTimer := .of_rest_cont (.inr (by simp))

theorem State.dropReaped_quiet (s : State) (b : StateBody) : s.Quiet (s.dropReaped b) := by
  unfold State.dropReaped
  split
  · split
    · exact s.dropReap_quiet _
    · exact .refl s
  all_goals exact .refl s

theorem State.setTrainIntent_quiet (s : State) : s.Quiet s.setTrainIntent := by
  refine .of_rest_line (by simp) (fun h => ?_) (.inr (by simp)) (.inr (by simp))
  unfold State.setTrainIntent
  obtain ⟨ht, hs, hj, hl, hh, hr⟩ := h
  split
  · dsimp only
    split
    · exact ⟨Nat.zero_le _, hs, hj, hl, hh, hr⟩
    · exact ⟨ht, hs, hj, hl, hh, hr⟩
  · exact ⟨ht, hs, hj, hl, hh, hr⟩

theorem State.startRetry_quiet (s : State) : s.Quiet s.startRetry := .of_rest_cont (.inr (by simp))

theorem State.beginServing_quiet (s : State) (body : List Byte) : s.Quiet (s.beginServing body) :=
  .of_rest_line (by simp) (by simp) (.inr (by simp)) (.inr (by simp))

theorem State.advanceCursor_quiet (s : State) (body : List Byte) : s.Quiet (s.advanceCursor body) := .of_rest_cont (.inr (by simp))

theorem State.finishTrain_quiet (s : State) : s.Quiet s.finishTrain := .ite (fun _ => s.endTrain_quiet) fun _ => .refl s

theorem ContentionUnit.clearTrainIntent_offer (c : ContentionUnit) : c.clearTrainIntent.offer = none ∨ c.clearTrainIntent.offer = c.offer :=
  Option.filter_none_or_self ..

theorem ContentionUnit.clearSyncReq_offer (c : ContentionUnit) : c.clearSyncReq.offer = none ∨ c.clearSyncReq.offer = c.offer :=
  Option.filter_none_or_self ..

theorem ContentionUnit.leaveMember_offer (c : ContentionUnit) : c.leaveMember.offer = none ∨ c.leaveMember.offer = c.offer :=
  Option.filter_none_or_self ..

theorem ContentionUnit.clearTrainIntent_bounded {c : ContentionUnit} (h : c.attempts.Bounded) : c.clearTrainIntent.attempts.Bounded := by
  obtain ⟨-, hs, hj, hl, hh, hr⟩ := h
  exact ⟨Nat.zero_le _, hs, hj, hl, hh, hr⟩

theorem ContentionUnit.clearSyncReq_bounded {c : ContentionUnit} (h : c.attempts.Bounded) : c.clearSyncReq.attempts.Bounded := by
  obtain ⟨ht, -, hj, hl, hh, hr⟩ := h
  exact ⟨ht, Nat.zero_le _, hj, hl, hh, hr⟩

theorem ContentionUnit.leaveMember_bounded {c : ContentionUnit} (h : c.attempts.Bounded) : c.leaveMember.attempts.Bounded := by
  obtain ⟨-, hs, hj, -, -, -⟩ := h
  exact ⟨Nat.zero_le _, hs, hj, Nat.zero_le _, Nat.zero_le _, Nat.zero_le _⟩

theorem State.standDown_quiet (s : State) : s.Quiet s.standDown :=
  .of_rest_line (by simp) s.cont.clearTrainIntent_bounded (.inr (by simp)) s.cont.clearTrainIntent_offer

/-- The pool count of a shadow never changes after its head. -/
theorem Shadow.takeRecords_poolInUse {sh sh' : Shadow} {rs : List EntryRecord} (h : sh.takeRecords rs = some sh') :
    sh'.poolInUse = sh.poolInUse := by
  induction rs generalizing sh with
  | nil => exact (Option.some.inj h) ▸ rfl
  | cons r rs ih =>
    unfold Shadow.takeRecords at h
    split at h
    · exact (ih h :)
    · cases h

/-- A shadow opens, fills or closes: only its pool count is read by a law. -/
theorem State.shadow_quiet (s : State) {sync : SyncUnit} {c : ContentionUnit}
    (shadow : ∀ sh, sync.shadow = some sh →
      sh.poolInUse ≤ Config.poolSize ∨ ∃ sh', s.sync.shadow = some sh' ∧ sh'.poolInUse = sh.poolInUse)
    (sendList : c.sendList = s.cont.sendList) (attempts : s.cont.attempts.Bounded → c.attempts.Bounded)
    (offer : c.offer = none ∨ c.offer = s.cont.offer) : s.Quiet { s with sync := sync, cont := c } :=
  { State.Quiet.refl s with
    sendList := by simp [sendList]
    shadow := shadow
    offer := fun _ ho => offer.elim (fun h => h) fun h => h.trans ho
    lineKept := fun h => State.lineLaw_congr (s := s) (fun h => h) rfl offer h
    countKept := by
      rw [State.countLaw_iff, State.countLaw_iff]
      exact fun ⟨hc, hl, ha⟩ => ⟨hc, by simpa [sendList] using hl, attempts ha⟩ }

theorem State.takeEntries_quiet (s : State) (sender : Station) (body : List Byte) : s.Quiet (s.takeEntries sender body) := by
  unfold State.takeEntries
  split
  case h_2 => exact .refl s
  case h_1 sh rs hsh _ =>
    split
    · exact .refl s
    · split
      case h_2 => exact s.dropShadow_quiet
      case h_1 sh' ht =>
        refine s.shadow_quiet (c := s.cont) (fun u hu => .inr ⟨sh, hsh, ?_⟩) rfl (fun h => h) (.inr rfl)
        rw [← Option.some.inj hu, Shadow.takeRecords_poolInUse ht]

/-- The pool count of a head is one a shadow may have (R61). -/
theorem headOf_poolInUse {body : List Byte} {f : HeadFields} (h : headOf body = some f) : f.poolInUse ≤ Config.poolSize := by
  unfold headOf at h
  split at h
  · split at h
    case isTrue hg =>
      obtain ⟨r, -, rfl⟩ := Option.map_eq_some_iff.1 h
      exact hg.2
    case isFalse => cases h
  · cases h

/-! ### Contention, events and the part's own turn -/

theorem State.active_iff (s : State) : s.active = true ↔ s.ctl.state ≠ .offline := by simp [State.active]

/-- The count a REAP goes by is the one recorded, or 0. -/
theorem AttemptCounts.reapFor_bounded {a : AttemptCounts} (h : a.Bounded) (t : Station) : a.reapFor t ≤ Config.attemptLimit := by
  obtain ⟨-, -, -, -, -, hr⟩ := h
  unfold AttemptCounts.reapFor
  split
  · exact hr
  · exact Nat.zero_le _

theorem State.beginOffer_quiet {s : State} (hact : s.active = true) (src : OfferSource) (f : TxFrame) : s.Quiet (s.beginOffer src f) := by
  have mark : s.Quiet { s with cont := { s.cont with offer := some { source := src, frame := f, phase := .arbitrating } },
                               line := s.line.startMark } :=
    { State.Quiet.refl s with
      sendList := List.Sublist.refl _
      offer := fun h => absurd h (s.active_iff.1 hact)
      lineKept := fun _ => State.lineLaw_of_idle rfl
      countKept := fun h => h }
  cases src with
  | entry tag => exact mark.trans (State.update_quiet _ tag Context.offered_report)
  | reap target =>
    refine mark.trans (State.cont_quiet _ (List.Sublist.refl _) (fun h => ?_) (.inr rfl))
    obtain ⟨ht, hs, hj, hl, hh, -⟩ := id h
    exact ⟨ht, hs, hj, hl, hh, AttemptCounts.reapFor_bounded h target⟩
  | join => exact mark.trans (State.ctl_quiet _ rfl rfl fun h => h)
  | train => exact mark
  | syncReq => exact mark
  | leave => exact mark
  | heartbeat => exact mark

/-- The line alone changes, and its law is kept. -/
theorem State.line_quiet (s : State) {l : LineUnit} (law : s.lineLaw → ({ s with line := l } : State).lineLaw) : s.Quiet { s with line := l } :=
  { State.Quiet.refl s with
    sendList := List.Sublist.refl _
    lineKept := law
    countKept := fun h => h }

/-- While the line is idle its count may rise. -/
theorem State.lineLaw_of_idle_line {s t : State} (hst : t.ctl.state ≠ .offline) (hidle : s.lineIdle = true)
    (hoffer : t.cont.offer = s.cont.offer) (hover : t.line.overrun = s.line.overrun) (hrx : t.line.rx.isFilling = true → s.line.rx.isFilling = true)
    (hdom : t.line.dominantLeft ≤ s.line.dominantLeft) : t.lineLaw := by
  obtain ⟨hframe, hleft⟩ := s.lineIdle_iff.1 hidle
  unfold State.lineLaw State.frameInProgress LineUnit.inFrame at *
  rw [hoffer, hover]
  simp only [Bool.or_eq_false_iff, Bool.or_eq_true] at *
  obtain ⟨ho, hr, hv⟩ := hframe
  rintro (h | (h | h | h) | h)
  · exact absurd h hst
  · simp [ho] at h
  · simp [hr] at hrx; simp [hrx] at h
  · simp [hv] at h
  · omega

theorem LineUnit.idleAt_isFilling (l : LineUnit) (n : Nat) (h : (l.idleAt n).rx.isFilling = true) : l.rx.isFilling = true := by
  unfold LineUnit.idleAt at h
  dsimp only at h
  split at h
  · cases h
  · exact h

theorem State.idleTo_quiet {s : State} (hact : s.active = true) (hidle : s.lineIdle = true) (n : Nat) : s.Quiet (s.idleTo n) :=
  .of_rest (fun _ => State.lineLaw_of_idle_line (by simpa using s.active_iff.1 hact) hidle (by simp) (by simp)
    (LineUnit.idleAt_isFilling _ _) (by simp)) (by simp) (by simp) (.inr (by simp)) (.inr (by simp))

theorem Context.waitTimer_report (f : Timer → Timer) : Context.Report fun c => { c with waitTimer := f c.waitTimer } :=
  ⟨fun _ => rfl, fun _ => rfl, fun _ => Iff.rfl, fun _ => Iff.rfl, fun _ => Iff.rfl⟩

theorem State.passSlot_quiet {s : State} (hact : s.active = true) : s.Quiet s.passSlot := by
  refine { State.Quiet.refl s with
    req := ⟨_, (Context.waitTimer_report (Timer.pass s.slotUs)).restrict Context.isOpen, rfl⟩
    sendList := List.Sublist.refl _
    lineKept := fun h => ?_
    countKept := fun h => h }
  cases hidle : s.lineIdle with
  | true =>
    refine State.lineLaw_of_idle_line (by simpa using s.active_iff.1 hact) hidle (by simp) (by simp) (LineUnit.idleAt_isFilling _ _) ?_
    unfold State.passSlot
    dsimp only
    split <;> omega
  | false => exact State.lineLaw_of_idle (by simp [State.passSlot, State.nextIdle, hidle])

end Sys2Proof.Machine
end

section
/-! What a command can do beyond bookkeeping. -/

namespace Sys2Proof.Machine

/-- The station right after START in OFFLINE with a good block (R164). -/
def State.started (s : State) : State :=
  ({ s with port := { s.port with locked := true, digest := s.port.computeDigest }, line := s.line.restarted } : State).enterListening

/-- The station right after entry into MUTED (R100). -/
def State.enterMuted (s : State) : State :=
  let t := if s.ctl.state.applies then s.leaveMember else s
  ({ t with replica := { t.replica with valid := false }, ctl := { t.ctl with state := .muted, cleanCount := 0 },
            cont := t.cont.clearSyncReq, sync := { t.sync with retry := .stopped, shadow := none } } : State).raise .muted

/-- The station right after it has founded the claim table (R127). -/
def State.founds (s : State) : State :=
  ({ s with replica := s.port.founded s.ctl.number, ctl := { s.ctl with state := .inStep },
            lease := { s.lease with heartbeat := .running (s.leaseUs / 4) },
            cont := { s.cont with heartbeatDue := false, attempts := { s.cont.attempts with heartbeat := 0 } } } : State).raise .founded

/-- Completions, with the send-list entries of some tags removed. -/
def State.completesWith (s : State) (f : Context → Option Completion) (p : Byte → Bool) : State :=
  { s with req := s.req.complete f, cont := s.cont.removeEntries p }

/-- A chain of changes in which the replica's table stays, or the replica is discarded. `host` is whether the host causes it. -/
inductive Local (host : Bool) : State → State → Prop
  | quiet {s t : State} (h : s.Quiet t) : Local host s t
  | trans {s t u : State} (h : Local host s t) (k : Local host t u) : Local host s u
  /-- A port transaction writes port fields: the block in OFFLINE alone, and what it captures anew is the head record. -/
  | port {s : State} (p : PortUnit) (hhost : host = true) (capture : p.capture = none ∨ p.capture = s.req.queue.head? ∨ p.capture = s.port.capture)
      (locked : p.locked = s.port.locked) (config : p.config = s.port.config ∨ s.ctl.state = .offline) : Local host s { s with port := p }
  | started {s : State} (hhost : host = true) (h : s.ctl.state = .offline) : Local host s s.started
  /-- RESTART's own transaction has ended any TAKE before it. -/
  | restarted {s : State} (hhost : host = true) (h : s.ctl.state ≠ .offline) (hc : s.port.capture = none) : Local host s s.restarted
  | leaving {s : State} (h : s.ctl.state = .inStep) : Local host s s.enterLeaving
  | accepted {s : State} (r : RequestRecord) (k : RequestKind) (h : s.submitStatus r = .accepted) : Local host s (s.accept r k)
  | removed {s : State} (r : CompletionRecord) (hhost : host = true) (h : s.port.capture = some r) :
      Local host s { s with req := s.req.take r.tag, port := { s.port with capture := none } }
  | listening {s : State} (h : s.ctl.state = .joining ∨ s.ctl.state.ended = true) : Local host s s.enterListening
  | joining {s : State} (h : s.ctl.state = .listening) : Local host s
      { s with ctl := { s.ctl with joinWait := .stopped, state := .joining, rejectCount := 0 },
               cont := { s.cont with joinPending := true, attempts := { s.cont.attempts with join := 0 } } }
  | admitted {s : State} (h : s.ctl.state = .joining) :
      Local host s { s with ctl := { s.ctl with state := .syncing }, cont := { s.cont with syncReqPending := true } }
  | lostStep {s : State} (quiet : Bool) (h : s.ctl.state.applies = true) : Local host s (s.loseStep quiet)
  | muted {s : State} (h : s.ctl.state.rejects = true) (hn : Config.rejectLimit ≤ s.ctl.rejectCount) : Local host s s.enterMuted
  | recovered {s : State} (h : s.ctl.state = .muted) : Local host s
      { s with ctl := { s.ctl with state := .outOfStep, rejectCount := 0 }, cont := { s.cont with syncReqPending := true } }
  | expelled {s : State} (st : StationState) (f : EventFlag) (n : Word) (h : st = .evicted ∨ st = .refused)
      (begun : s.ctl.state ≠ .offline ∨ s.cont.offer ≠ none) : Local host s (s.expel st f n)
  | departed {s : State} (n : Word) (h : s.ctl.state = .leaving) : Local host s (s.depart n)
  | completed {s : State} (f : Context → Option Completion) (p : Byte → Bool)
      (h : ∀ c ∈ s.req.contexts, (c.decided f).isSome = true → p c.tag = true) : Local host s (s.completesWith f p)
  /-- A WAITING context turns to WITHDRAWING (Table 8-6). -/
  | withdrawn {s : State} (c : Context) (h : s.req.find c.tag = some c) (hc : c.state = .waiting) :
      Local host s { s with req := s.req.update c.tag Context.withdraw, cont := s.cont.addEntry c.withdrawEntry }

/-- What a command other than HARDWARE_RESET does: a chain of local changes, with at most one apply, founding or installation in it. -/
inductive Does (c : Instr) (s t : State) : Prop
  | chain (h : Local (Instr.fromHost c) s t)
  | heard (f : HeardFrame) (b : StateBody) (u : State) (hf : Instr.heardFrame c = some f) (hb : stateBodyOf f.kind f.bytes = some b)
      (before : Local (Instr.fromHost c) s u) (h : u.ctl.state.applies = true) (hx : f.head.station ≠ u.ctl.number)
      (after : Local (Instr.fromHost c) (u.applyFrame false none f.head.station b) t)
  /-- A frame heard under the local number is applied, and then refuses the station (R129). -/
  | clash (f : HeardFrame) (b : StateBody) (u : State) (hf : Instr.heardFrame c = some f) (hb : stateBodyOf f.kind f.bytes = some b)
      (before : Local (Instr.fromHost c) s u) (h : u.ctl.state.applies = true)
      (after : Local (Instr.fromHost c) ((u.applyFrame false none u.ctl.number b).expel .refused .clash 0#16) t)
  | own (k : FrameKind) (a : Answers) (src : OfferSource) (b : StateBody) (u : State) (hc : Instr.ownFrame c = some (k, a))
      (hk : k.isState = true) (before : Local (Instr.fromHost c) s u) (h : u.ctl.state.applies = true)
      (after : Local (Instr.fromHost c) ((u.endSource src).applyFrame true src.tag u.ctl.number b) t)
  | founded (a : Answers) (u : State) (hc : c = .join .own a) (before : Local (Instr.fromHost c) s u) (h : u.ctl.state = .joining)
      (after : t = u.founds)
  | installed (hd : Head) (check : Word) (a : Answers) (sh : Shadow) (u : State) (hc : c = .snapTail (.heard hd check) a)
      (before : Local (Instr.fromHost c) s u) (hs : s.sync.shadow = some sh) (hu : u.sync.shadow = some sh)
      (begun : u.ctl.state ≠ .offline) (good : sh.good u.tableSize check = true) (present : sh.roster[u.ctl.number] = .present) (after : Local (Instr.fromHost c) (u.install sh) t)

variable {host : Bool} {c : Instr}

theorem Local.refl (s : State) : Local host s s := .quiet (.refl s)

theorem Local.then_quiet {s t u : State} (h : Local host s t) (k : t.Quiet u) : Local host s u := h.trans (.quiet k)

theorem Does.quiet {s t : State} (h : s.Quiet t) : Does c s t := .chain (.quiet h)

theorem Does.refl (s : State) : Does c s s := .quiet (.refl s)

/-- A chain of changes may begin with bookkeeping that leaves a shadow or closes it. -/
theorem Does.after_quiet {s t u : State} (h : s.Quiet t) (hsh : t.sync.shadow = none ∨ t.sync.shadow = s.sync.shadow) (k : Does c t u) :
    Does c s u := by
  have first : Local (Instr.fromHost c) s t := .quiet h
  cases k with
  | chain k => exact .chain (first.trans k)
  | heard f b v hf hb before ha hx after => exact .heard f b v hf hb (first.trans before) ha hx after
  | clash f b v hf hb before ha after => exact .clash f b v hf hb (first.trans before) ha after
  | own k a src b v hc hk before ha after => exact .own k a src b v hc hk (first.trans before) ha after
  | founded a v hc before hj after => exact .founded a v hc (first.trans before) hj after
  | installed hd check a sh v hc before hs hv begun good present after =>
    refine .installed hd check a sh v hc (first.trans before) ?_ hv begun good present after
    rcases hsh with h | h
    · simp [h] at hs
    · rw [← h, hs]

/-- A chain of changes may go on locally, but for a founding, which ends it. -/
theorem Does.then_local {s t u : State} (hc : ∀ a, c ≠ .join .own a) (h : Does c s t) (k : Local (Instr.fromHost c) t u) : Does c s u := by
  cases h with
  | chain h => exact .chain (h.trans k)
  | heard f b v hf hb before ha hx after => exact .heard f b v hf hb before ha hx (after.trans k)
  | clash f b v hf hb before ha after => exact .clash f b v hf hb before ha (after.trans k)
  | own kd a src b v hc hk before ha after => exact .own kd a src b v hc hk before ha (after.trans k)
  | founded a v hc' before hj after => exact absurd hc' (hc a)
  | installed hd check a sh v hc before hs hv begun good present after =>
    exact .installed hd check a sh v hc before hs hv begun good present (after.trans k)

/-! ### Requests -/

theorem Cause.result_isSome {k : Cause} (h : k ≠ .none) : k.result.isSome = true := by cases k <;> first | rfl | exact absurd rfl h

/-- The context with a tag completes with its cause, and its entry goes. -/
theorem Local.completeCause (s : State) (tag : Byte) (g n : Word) :
    Local host s { s with req := s.req.completeCause tag g n, cont := s.cont.removeEntry tag } := by
  refine .completed _ _ fun c _ hd => ?_
  by_contra hne
  simp [Context.decided, hne] at hd

/-- Expiry and CANCEL act on the context by its state. -/
theorem State.endByCause_local (s : State) (tag : Byte) (cause : Cause) : Local host s (s.endByCause tag cause) := by
  unfold State.endByCause
  cases hf : s.req.find tag with
  | none => exact .refl s
  | some c =>
    have marked : Local host s { s with req := s.req.update tag fun c => c.mark cause } :=
      .quiet (s.update_quiet tag (Context.mark_report cause))
    have found : (s.req.update tag fun c => c.mark cause).find tag = some (c.mark cause) := by
      rw [RequestUnit.find_update _ _ _ _ (by simp), if_pos rfl, hf]; rfl
    obtain rfl : c.tag = tag := (RequestUnit.mem_of_find hf).2
    dsimp only
    split
    · exact marked.trans (.completeCause _ _ _ _)
    · exact marked.trans (.completeCause _ _ _ _)
    · exact marked.trans (.withdrawn (c.mark cause) found ‹_›)
    all_goals exact marked

/-- A failed attempt. -/
theorem State.failAttempt_local (s : State) (src : OfferSource) : Local host s (s.failAttempt src) := by
  unfold State.failAttempt
  cases src with
  | entry tag =>
    dsimp only
    split
    · exact .completeCause ..
    · exact .quiet ((s.update_quiet tag Context.failed_report).trans (State.updateEntry_quiet _ tag (fun _ => rfl) fun e => bump_le _))
  | _ =>
    refine .quiet (s.cont_quiet (List.Sublist.refl _) (fun ⟨ht, hs, hj, hl, hh, hr⟩ => ?_) (.inr rfl))
    simp_all [AttemptCounts.Bounded, bump_le]

theorem State.staleSend_local {s : State} (src : OfferSource) (h : s.ctl.state.applies = true) : Local host s (s.staleSend src) := by
  unfold State.staleSend
  cases src with
  | entry tag =>
    dsimp only
    split
    · exact .trans (.completeCause s tag _ _) (.lostStep _ h)
    · have back := (s.update_quiet tag Context.stale_report).trans
        (State.updateEntry_quiet _ tag (f := fun e => { e with attempts := 0 }) (fun _ => rfl) fun e => Nat.zero_le _)
      exact .trans (.quiet back) (.lostStep _ h)
  | _ => exact .trans (.quiet (s.endSource_quiet _)) (.lostStep _ (by simpa using h))

/-! ### Frames heard -/

theorem State.abandonHold_shadow (s : State) (holder : Station) :
    (s.abandonHold holder).sync.shadow = none ∨ (s.abandonHold holder).sync.shadow = s.sync.shadow := by
  unfold State.abandonHold
  dsimp only
  split <;> split <;> simp [State.dropShadow]

theorem State.followHold_shadow (s : State) (sender : Station) (cont : Bool) :
    (s.followHold sender cont).sync.shadow = none ∨ (s.followHold sender cont).sync.shadow = s.sync.shadow := by
  have start : ∀ u : State, (if cont then { u with cont := { u.cont with hold := some sender } } else u).sync = u.sync := by
    intro u; split <;> rfl
  unfold State.followHold
  dsimp only
  rw [start]
  split
  · exact .inr rfl
  · split
    · split <;> exact .inr rfl
    · exact s.abandonHold_shadow _

theorem State.begun_of_canHear {s : State} (h : s.canHear = true) : s.ctl.state ≠ .offline := by
  simp only [State.canHear, Bool.and_eq_true] at h
  exact s.active_iff.1 h.1.1

/-- A frame heard does what its delivery does, by the two ways its delivery can end: under the local number in a state that applies the
own-number rule the station is refused, and else the delivery stands. -/
theorem State.receive_does (s : State) (k : FrameKind) (h : Head) (body : List Byte) (a : Answers) (answer : Option AnswerSlot)
    {deliver : State → State}
    (stands : ∀ t : State, t.ctl.number = s.ctl.number → t.ctl.state = s.ctl.state → t.ctl.state ≠ .offline →
      (h.station = s.ctl.number → s.ctl.state.ownNumberRule = false) → Does c t (deliver t))
    (refused : ∀ t : State, h.station = t.ctl.number → t.ctl.state ≠ .offline → Does c t ((deliver t).expel .refused .clash 0#16)) :
    Does c s (s.receive k h body a answer deliver) := by
  cases hs : s.canHear with
  | false => rw [s.receive_deaf k h body a answer deliver hs]; exact .refl s
  | true =>
    cases hg : lenGood k body.length && bodyGood s.tableSize k body with
    | false => rw [s.receive_bad k h body a answer deliver hs hg]; exact .quiet (s.badFrame_quiet _)
    | true =>
      have clean := s.heardClean_quiet k h body a answer
      cases hr : a.reject with
      | true => rw [s.receive_rejected k h body a answer deliver hs hg hr]; exact .quiet clean
      | false =>
        rw [s.receive_completed k h body a answer deliver hs hg hr]
        have followed := clean.trans (State.followHold_bookkeeping _ h.station h.cont)
        have shadow := State.followHold_shadow (s.heardClean k h body a answer) h.station h.cont
        rw [(s.heardClean_units k h body a answer).2.2.1] at shadow
        have begun : ((s.heardClean k h body a answer).followHold h.station h.cont).ctl.state ≠ .offline := by
          rw [followed.state]; exact State.begun_of_canHear hs
        dsimp only
        split
        case isTrue hn => exact .after_quiet followed shadow (refused _ (by rw [followed.number]; exact hn.1) begun)
        case isFalse hn =>
          exact .after_quiet followed shadow (stands _ followed.number followed.state begun fun he => by simpa [he] using hn)

end Sys2Proof.Machine
end

section
/-! An apply, up to the effects by kind, and the law of OFFLINE for a station that has begun. -/

namespace Sys2Proof.Machine

/-! ### The apply up to its effects by kind -/

/-- The outcome of an apply goes to the context whose frame it was. -/
def State.outcomeTaken (s : State) (tag : Option Byte) (a : Applied) : State :=
  match tag, a.outcome with
  | some t, some (code, gen) => s.takeOutcome t code gen a.replica.sequence
  | _, _ => s

/-- An apply before the effects by kind: the replica, the outcome, the notices, the heartbeat timer, the reap set. -/
def State.applied (s : State) (own : Bool) (tag : Option Byte) (sender : Station) (b : StateBody) : State :=
  let a := s.replica.apply s.tableSize sender b
  let t := a.grants.foldl (fun s g => s.notice a.replica.sequence g) (({ s with replica := a.replica } : State).outcomeTaken tag a)
  (if own then t.restartHeartbeat else t).dropReaped b

theorem State.applyFrame_eq_applied (s : State) (own : Bool) (tag : Option Byte) (sender : Station) (b : StateBody) :
    s.applyFrame own tag sender b =
      if s.replica.admits sender b then
        (s.applied own tag sender b).afterApply own s.replica sender (s.replica.apply s.tableSize sender b).replica.sequence b
      else s.applied own tag sender b := rfl

section outcome
variable (s : State) (tag : Option Byte) (a : Applied)

@[simp] theorem State.outcomeTaken_port : (s.outcomeTaken tag a).port = s.port := by unfold State.outcomeTaken; split <;> simp
@[simp] theorem State.outcomeTaken_ctl : (s.outcomeTaken tag a).ctl = s.ctl := by unfold State.outcomeTaken; split <;> simp
@[simp] theorem State.outcomeTaken_line : (s.outcomeTaken tag a).line = s.line := by unfold State.outcomeTaken; split <;> simp
@[simp] theorem State.outcomeTaken_replica : (s.outcomeTaken tag a).replica = s.replica := by unfold State.outcomeTaken; split <;> simp
@[simp] theorem State.outcomeTaken_lease : (s.outcomeTaken tag a).lease = s.lease := by unfold State.outcomeTaken; split <;> simp
@[simp] theorem State.outcomeTaken_sync : (s.outcomeTaken tag a).sync = s.sync := by unfold State.outcomeTaken; split <;> simp
@[simp] theorem State.outcomeTaken_pending : (s.outcomeTaken tag a).pending = s.pending := by unfold State.outcomeTaken; split <;> simp
@[simp] theorem State.outcomeTaken_offer : (s.outcomeTaken tag a).cont.offer = s.cont.offer := by unfold State.outcomeTaken; split <;> simp
@[simp] theorem State.outcomeTaken_attempts : (s.outcomeTaken tag a).cont.attempts = s.cont.attempts := by
  unfold State.outcomeTaken; split <;> simp

end outcome

section applied
variable (s : State) (own : Bool) (tag : Option Byte) (sender : Station) (b : StateBody)

theorem State.ite_restartHeartbeat (s : State) (own : Bool) : s.Quiet (if own then s.restartHeartbeat else s) :=
  .ite (fun _ => s.restartHeartbeat_quiet) fun _ => .refl s

/-- After the notices of an apply come the heartbeat timer and the reap set, which is bookkeeping. -/
theorem State.applied_quiet :
    ((s.replica.apply s.tableSize sender b).grants.foldl
      (fun s' g => s'.notice (s.replica.apply s.tableSize sender b).replica.sequence g)
      (({ s with replica := (s.replica.apply s.tableSize sender b).replica } : State).outcomeTaken tag
        (s.replica.apply s.tableSize sender b))).Quiet (s.applied own tag sender b) :=
  (State.ite_restartHeartbeat _ own).trans (State.dropReaped_quiet _ b)

@[simp] theorem State.applied_port : (s.applied own tag sender b).port = s.port := by
  have h : ∀ t : State, (if own then t.restartHeartbeat else t).port = t.port := by intro t; split <;> simp
  unfold State.applied; dsimp only
  rw [State.dropReaped_port, h, (State.notices_units ..).1]; simp

@[simp] theorem State.applied_ctl : (s.applied own tag sender b).ctl = s.ctl := by
  have h : ∀ t : State, (if own then t.restartHeartbeat else t).ctl = t.ctl := by intro t; split <;> simp
  unfold State.applied; dsimp only
  rw [State.dropReaped_ctl, h, (State.notices_units ..).2.1]; simp

@[simp] theorem State.applied_line : (s.applied own tag sender b).line = s.line := by
  have h : ∀ t : State, (if own then t.restartHeartbeat else t).line = t.line := by intro t; split <;> simp
  unfold State.applied; dsimp only
  rw [State.dropReaped_line, h, (State.notices_units ..).2.2.1]; simp

@[simp] theorem State.applied_replica : (s.applied own tag sender b).replica = (s.replica.apply s.tableSize sender b).replica := by
  have h : ∀ t : State, (if own then t.restartHeartbeat else t).replica = t.replica := by intro t; split <;> simp
  unfold State.applied; dsimp only
  rw [State.dropReaped_replica, h, (State.notices_units ..).2.2.2.1]; simp

@[simp] theorem State.applied_sync : (s.applied own tag sender b).sync = s.sync := by
  have h : ∀ t : State, (if own then t.restartHeartbeat else t).sync = t.sync := by intro t; split <;> simp
  unfold State.applied; dsimp only
  rw [State.dropReaped_sync, h, (State.notices_units ..).2.2.2.2.2.1]; simp

@[simp] theorem State.applied_pending : (s.applied own tag sender b).pending = s.pending := by
  have h : ∀ t : State, (if own then t.restartHeartbeat else t).pending = t.pending := by intro t; split <;> simp
  unfold State.applied; dsimp only
  rw [State.dropReaped_pending, h, (State.notices_units ..).2.2.2.2.2.2.1]; simp

end applied

/-! ### A station that has begun stays begun -/

variable {host : Bool} {c : Instr}

/-- No local change leads into OFFLINE, and past START none touches the lock. -/
theorem Local.begun {s t : State} (h : Local host s t) (hs : s.ctl.state ≠ .offline) :
    t.ctl.state ≠ .offline ∧ t.port.locked = s.port.locked := by
  induction h with
  | quiet h => exact ⟨h.state ▸ hs, by rw [h.port]⟩
  | trans _ _ ih ih' =>
    obtain ⟨ht, hl⟩ := ih hs
    obtain ⟨hu, hl'⟩ := ih' ht
    exact ⟨hu, hl'.trans hl⟩
  | port p hh capture locked => exact ⟨hs, locked⟩
  | started hh h => exact absurd h hs
  | restarted => exact ⟨nofun, rfl⟩
  | leaving => exact ⟨nofun, rfl⟩
  | accepted => exact ⟨hs, rfl⟩
  | removed => exact ⟨hs, rfl⟩
  | listening => exact ⟨nofun, rfl⟩
  | joining => exact ⟨nofun, rfl⟩
  | admitted => exact ⟨nofun, rfl⟩
  | lostStep => exact ⟨by simp, by simp⟩
  | muted => exact ⟨nofun, by unfold State.enterMuted; dsimp only; split <;> rfl⟩
  | recovered => exact ⟨nofun, rfl⟩
  | expelled st f n h => exact ⟨by rcases h with rfl | rfl <;> simp, by simp⟩
  | departed => exact ⟨nofun, rfl⟩
  | completed => exact ⟨hs, rfl⟩
  | withdrawn => exact ⟨hs, rfl⟩

theorem State.afterApply_begun {s : State} (h : s.ctl.state ≠ .offline) (own : Bool) (before : Replica) (sender : Station) (n : Word)
    (b : StateBody) : (s.afterApply own before sender n b).ctl.state ≠ .offline := by
  cases b with
  | join => dsimp only [State.afterApply]; split <;> simp [h]
  | leave => cases own <;> simp [State.afterApply, h]
  | reap target => dsimp only [State.afterApply]; repeat' split
                   all_goals simp [h]
  | claim | release | withdraw | downgrade | heartbeat => exact h

theorem StationState.begun_of_applies {st : StationState} (h : st.applies = true) : st ≠ .offline := by rintro rfl; cases h

theorem State.applyFrame_begun {s : State} (h : s.ctl.state.applies = true) (own : Bool) (tag : Option Byte) (sender : Station)
    (b : StateBody) : (s.applyFrame own tag sender b).ctl.state ≠ .offline ∧ (s.applyFrame own tag sender b).port.locked = s.port.locked := by
  have hs := StationState.begun_of_applies h
  rw [State.applyFrame_eq_applied]
  split
  · refine ⟨State.afterApply_begun ?_ _ _ _ _ _, by simp⟩
    simpa using hs
  · exact ⟨by simpa using hs, by simp⟩

/-- No command but HARDWARE_RESET leads into OFFLINE or opens the lock. -/
theorem Does.begun {s t : State} (h : Does c s t) (hs : s.ctl.state ≠ .offline) :
    t.ctl.state ≠ .offline ∧ t.port.locked = s.port.locked := by
  cases h with
  | chain h => exact h.begun hs
  | heard f b u hf hb before h hx after =>
    obtain ⟨ha, hal⟩ := u.applyFrame_begun h false none f.head.station b
    obtain ⟨ht, htl⟩ := after.begun ha
    exact ⟨ht, htl.trans (hal.trans (before.begun hs).2)⟩
  | clash f b u hf hb before h after =>
    obtain ⟨ht, htl⟩ := after.begun (by simp)
    refine ⟨ht, htl.trans ?_⟩
    rw [State.expel_port_locked, (u.applyFrame_begun h false none _ b).2, (before.begun hs).2]
  | own k a src b u hc hk before h after =>
    obtain ⟨ha, hal⟩ := (u.endSource src).applyFrame_begun (by simpa using h) true src.tag u.ctl.number b
    obtain ⟨ht, htl⟩ := after.begun ha
    exact ⟨ht, htl.trans (hal.trans ((congrArg _ (u.endSource_port src)).trans (before.begun hs).2))⟩
  | founded a u hc before hj after =>
    subst after
    exact ⟨nofun, (before.begun hs).2⟩
  | installed hd check a sh u hc before hs' hu hbegun good present after =>
    obtain ⟨ht, htl⟩ := after.begun nofun
    exact ⟨ht, htl.trans (before.begun hs).2⟩

end Sys2Proof.Machine
end

section
/-! What each command does. -/

namespace Sys2Proof.Machine

variable {host : Bool} {c : Instr}

/-! ### Port transactions -/

theorem Local.csnFalls (s : State) : Local true s s.csnFalls := .port _ rfl (.inl rfl) rfl (.inl rfl)

theorem Local.shiftOut (s t : State) (inputs after : Nat) (out : List Byte) : Local true t (s.shiftOut inputs after out t) :=
  .port _ rfl (.inl rfl) rfl (.inl rfl)

theorem Local.answerStatus {s t : State} (h : Local true s t) (inputs after : Nat) (st : PortStatus) :
    Local true s (s.answerStatus inputs after st t) := h.trans (.shiftOut ..)

theorem Local.transact (s : State) (spi : Spi) {run : Nat → State} (h : ∀ after, Local true s (run after)) :
    Local true s (s.transact spi run) := by
  cases spi with
  | csnFalls => exact .csnFalls s
  | clocked after => exact h after

/-- RESTART answered: CSn has fallen, which ended a TAKE before it, and then the station restarts. -/
theorem Local.restart (after : Nat) {s : State} (h : s.ctl.state ≠ .offline) :
    Local true s (s.answerStatus 0 after .accepted s.restarted) := by
  have fallen : Local true s { s with port := { s.port with capture := none } } := .port _ rfl (.inl rfl) rfl (.inl rfl)
  exact (fallen.trans (.restarted rfl h rfl)).trans (.shiftOut s ({ s with port := { s.port with capture := none } } : State).restarted 0 after _)

theorem execTake_local (s : State) (spi : Spi) : ∃ t, execTake s spi = .next t ∧ Local true s t := by
  refine ⟨_, rfl, .transact s spi fun after => .trans (.shiftOut s s 0 after _) (.port _ rfl ?_ rfl (.inl rfl))⟩
  dsimp only
  split
  · exact .inr (.inl rfl)
  · exact .inl rfl

theorem execSubmit_local (r : RequestRecord) (s : State) (spi : Spi) : ∃ t, execSubmit r s spi = .next t ∧ Local true s t := by
  refine ⟨_, rfl, .transact s spi fun after => .answerStatus ?_ ..⟩
  split
  case h_1 k hst _ => exact .accepted r k hst
  case h_2 => exact .refl s

theorem execWriteConfig_local (offset count : Byte) (data : List Byte) (s : State) (spi : Spi) :
    ∃ t, execWriteConfig offset count data s spi = .next t ∧ Local true s t := by
  refine ⟨_, rfl, .transact s spi fun after => ?_⟩
  split
  · exact .shiftOut ..
  · split
    · exact .answerStatus (.refl s) ..
    · split
      · exact .answerStatus (.refl s) ..
      case isFalse hst _ => exact .answerStatus (.port _ rfl (.inr (.inr (s.port.writeBlock_capture ..))) (s.port.writeBlock_locked ..) (.inr (by simpa using hst))) ..

theorem execStart_local (s : State) (spi : Spi) : ∃ t, execStart s spi = .next t ∧ Local true s t := by
  refine ⟨_, rfl, .transact s spi fun after => ?_⟩
  split
  · exact .answerStatus (.refl s) ..
  case isFalse hst =>
    split
    · exact .answerStatus (.refl s) ..
    · exact .answerStatus (.started rfl (by simpa using hst)) ..

theorem execTransactionCutShort_local (bytes : List Byte) (s : State) (spi : Spi) :
    ∃ t, execTransactionCutShort bytes s spi = .next t ∧ Local true s t := by
  refine ⟨_, rfl, ?_⟩
  split
  · refine .transact s spi fun _ => ?_
    split
    · exact .port _ rfl (.inl rfl) rfl (.inl rfl)
    · exact .shiftOut ..
  · exact .refl s

/-! ### Frames heard -/

theorem StationState.ownNumberRule_of_applies {st : StationState} (h : st.applies = true) : st.ownNumberRule = true := by
  cases st <;> first | rfl | cases h

/-- A delivery that needs nothing of the sender. -/
theorem State.receive_does_plain (hc : ∀ a, c ≠ .join .own a) (s : State) (k : FrameKind) (h : Head) (body : List Byte) (a : Answers) (answer : Option AnswerSlot)
    {deliver : State → State} (hd : ∀ t : State, t.ctl.state ≠ .offline → Does c t (deliver t)) :
    Does c s (s.receive k h body a answer deliver) :=
  s.receive_does k h body a answer (fun t _ _ ho _ => hd t ho) fun t _ ho =>
    (hd t ho).then_local hc (.expelled _ _ _ (.inr rfl) (.inl ((hd t ho).begun ho).1))

/-- The decision on a state frame of another number, or in a state that does not apply the own-number rule. -/
theorem State.decideHeard_does {t : State} {f : HeardFrame} {b : StateBody} (hf : Instr.heardFrame c = some f)
    (hb : stateBodyOf f.kind f.bytes = some b) (agrees : Bool)
    (hn : f.head.station = t.ctl.number → t.ctl.state.ownNumberRule = false) : Does c t (t.decideHeard f.head f.answers agrees b) := by
  unfold State.decideHeard
  split
  case isTrue ha =>
    split
    · refine .heard f b t hf hb (.refl t) ha (fun he => ?_) (.refl _)
      rw [StationState.ownNumberRule_of_applies ha] at hn
      exact absurd (hn he) (by simp)
    · split
      · exact .chain (.lostStep _ ha)
      · exact .refl t
  case isFalse =>
    split
    · exact .quiet (t.ctl_quiet rfl rfl fun h => h)
    · exact .refl t

/-- The decision on a state frame under the local number, which then refuses the station. -/
theorem State.decideHeard_refused_does {t : State} {f : HeardFrame} {b : StateBody} (hf : Instr.heardFrame c = some f)
    (hb : stateBodyOf f.kind f.bytes = some b) (agrees : Bool) (hn : f.head.station = t.ctl.number) (ho : t.ctl.state ≠ .offline) :
    Does c t ((t.decideHeard f.head f.answers agrees b).expel .refused .clash 0#16) := by
  have expelled : ∀ u : State, u.ctl.state ≠ .offline → Local (Instr.fromHost c) u (u.expel .refused .clash 0#16) :=
    fun u hu => .expelled _ _ _ (.inr rfl) (.inl hu)
  unfold State.decideHeard
  split
  case isTrue ha =>
    split
    · rw [hn]; exact .clash f b t hf hb (.refl t) ha (.refl _)
    · split
      · exact .chain (.trans (.lostStep _ ha) (expelled _ (by simp)))
      · exact .chain (expelled t ho)
  case isFalse =>
    split
    · exact .chain (.trans (.quiet (t.ctl_quiet rfl rfl fun h => h)) (expelled _ ho))
    · exact .chain (expelled t ho)

theorem State.receiveState_does (s : State) {f : HeardFrame} {b : StateBody} (hf : Instr.heardFrame c = some f)
    (hb : stateBodyOf f.kind f.bytes = some b) (agrees : Bool) :
    Does c s (s.receiveState f.kind f.head f.bytes f.answers agrees b) :=
  s.receive_does f.kind f.head f.bytes f.answers _
    (fun t hnum hst _ hn => t.decideHeard_does hf hb agrees (by rw [hnum, hst]; exact hn))
    fun t hn ho => t.decideHeard_refused_does hf hb agrees hn ho

/-! ### The station's own frames -/

/-- An own frame's end does what its completion does. -/
theorem State.ownFrameEnds_does (s : State) (k : FrameKind) (a : Answers) {complete : OfferSource → TxFrame → State → State}
    (hc : ∀ src f t, Does c t (complete src f t)) : Does c s (s.ownFrameEnds k a complete) := by
  by_cases hk : ∃ o, s.cont.offer = some o ∧ o.frame.kind = k
  case neg => rw [s.ownFrameEnds_none k a complete fun o ho hk' => hk ⟨o, ho, hk'⟩]; exact .refl s
  case pos =>
    obtain ⟨o, ho, rfl⟩ := hk
    have ran := s.passArbitration_quiet.trans
      (State.ownFrameRan_quiet (State.passArbitration_offer_ne_none (by simp [ho])) o a)
    rw [s.ownFrameEnds_ran o a complete ho]
    split
    · exact .chain (.trans (.trans (.quiet ran) (State.failAttempt_local ..)) (.quiet (State.clearOffer_quiet _)))
    · refine .after_quiet (ran.trans ((State.followHold_bookkeeping _ s.ctl.number o.frame.cont).trans (State.clearOffer_quiet _))) ?_ (hc ..)
      simpa [State.ownFrameRan] using State.followHold_shadow (s.passArbitration.ownFrameRan o a) s.ctl.number o.frame.cont

theorem State.decideOwn_does {k : FrameKind} {a : Answers} (hc : Instr.ownFrame c = some (k, a)) (hk : k.isState = true) (t : State)
    (src : OfferSource) (b : StateBody) : Does c t (t.decideOwn a src b) := by
  unfold State.decideOwn
  split
  · exact .quiet (t.endSource_quiet src)
  case isFalse ha =>
    have ha : t.ctl.state.applies = true := by simpa using ha
    split
    · exact .chain (t.staleSend_local src ha)
    · exact .own k a src b t hc hk (.refl t) ha (by simpa using Local.refl _)

/-- A state frame other than JOIN. -/
theorem State.stateFrameEnds_does (s : State) {β : Type} (k : FrameKind) (origin : Origin β) (a : Answers) (bytes : β → List Byte)
    (body : β → StateBody) (tx : List Byte → StateBody)
    (heard : ∀ h b, origin = .heard h b → Instr.heardFrame c = some { kind := k, head := h, bytes := bytes b, answers := a } ∧
      stateBodyOf k (bytes b) = some (body b))
    (own : origin = .own → Instr.ownFrame c = some (k, a) ∧ k.isState = true) :
    Does c s (s.stateFrameEnds k origin a bytes body tx) := by
  cases origin with
  | own => exact s.ownFrameEnds_does k a fun src f t => t.decideOwn_does (own rfl).1 (own rfl).2 src (tx f.body)
  | heard h b =>
    obtain ⟨hf, hb⟩ := heard h b rfl
    exact s.receiveState_does hf hb _

/-- The joiner's reading of its own JOIN. -/
theorem State.readJoin_does (t : State) (a : Answers) : Does (.join .own a) t (t.readJoin a) := by
  unfold State.readJoin
  split
  · exact .refl t
  case isFalse hj =>
    have hj : t.ctl.state = .joining := by simpa using hj
    split
    · exact .chain (.expelled _ _ _ (.inr rfl) (.inl (by simp [hj])))
    · split
      · exact .chain (.admitted hj)
      · split
        · exact .chain (.listening (.inl hj))
        · exact .founded a t rfl (.refl t) hj rfl

theorem execJoin_does (origin : Origin JoinBody) (a : Answers) (s : State) :
    ∃ t, execJoin origin a s = .next t ∧ Does (.join origin a) s t := by
  refine ⟨_, rfl, ?_⟩
  cases origin with
  | own => exact s.ownFrameEnds_does .join a fun src _ t => .after_quiet (t.endSource_quiet src) (.inr (by simp)) (State.readJoin_does _ a)
  | heard h b => exact s.receiveState_does (c := .join (.heard h b) a) rfl rfl _

/-! ### Trains -/

theorem execSyncReq_does (origin : Origin Unit) (a : Answers) (s : State) :
    ∃ t, execSyncReq origin a s = .next t ∧ Does (.syncReq origin a) s t := by
  refine ⟨_, rfl, ?_⟩
  cases origin with
  | own =>
    exact s.ownFrameEnds_does .syncReq a fun src _ t =>
      .quiet ((t.endSource_quiet src).trans ((State.startRetry_quiet _).trans (State.setTrainIntent_quiet _)))
  | heard h _ => exact State.receive_does_plain (by nofun) s .syncReq h [] a none fun t _ => .quiet t.setTrainIntent_quiet

/-- A requesting station opens its shadow, asks again or is refused (R114). -/
theorem State.openShadow_local {s : State} (hs : s.ctl.state ≠ .offline) (source : Station) (body : List Byte) : Local host s (s.openShadow source body) := by
  have closed : s.Quiet { s with sync := { s.sync with shadow := none } } :=
    s.shadow_quiet (c := s.cont) nofun rfl (fun h => h) (.inr rfl)
  unfold State.openShadow
  dsimp only
  split
  · exact .quiet closed
  case h_2 f hf =>
    split
    · exact .trans (.quiet closed) (.expelled _ _ _ (.inr rfl) (.inl hs))
    · split
      · exact .quiet (closed.trans (State.cont_quiet _ (List.Sublist.refl _) (fun h => h) (.inr rfl)))
      · refine .quiet (closed.trans (State.shadow_quiet _ (fun sh hsh => ?_) (by simp) s.cont.clearSyncReq_bounded s.cont.clearSyncReq_offer))
        obtain rfl := Option.some.inj hsh
        exact .inl (headOf_poolInUse hf)

theorem execSnapHead_does (origin : Origin (List Byte)) (a : Answers) (s : State) :
    ∃ t, execSnapHead origin a s = .next t ∧ Does (.snapHead origin a) s t := by
  refine ⟨_, rfl, ?_⟩
  cases origin with
  | own =>
    exact s.ownFrameEnds_does .snapHead a fun src f t =>
      .quiet ((t.endSource_quiet src).trans ((State.beginServing_quiet _ f.body).trans (State.restartHeartbeatTimer_quiet _)))
  | heard h body =>
    refine State.receive_does_plain (by nofun) s .snapHead h body a none fun t ht => ?_
    split
    · exact .chain (.trans (.quiet t.standDown_quiet) (State.openShadow_local (by simpa using ht) ..))
    · exact .quiet t.standDown_quiet

theorem execSnapEntry_does (origin : Origin (List Byte)) (a : Answers) (s : State) :
    ∃ t, execSnapEntry origin a s = .next t ∧ Does (.snapEntry origin a) s t := by
  refine ⟨_, rfl, ?_⟩
  cases origin with
  | own =>
    exact s.ownFrameEnds_does .snapEntry a fun src f t =>
      .quiet ((t.endSource_quiet src).trans ((State.advanceCursor_quiet _ f.body).trans (State.restartHeartbeatTimer_quiet _)))
  | heard h body => exact State.receive_does_plain (by nofun) s .snapEntry h body a none fun t _ => .quiet (t.takeEntries_quiet h.station body)

theorem State.takeTail_does {t : State} (ht : t.ctl.state ≠ .offline) (h : Head) (check : Word) (a : Answers) :
    Does (.snapTail (.heard h check) a) t (t.takeTail h.station check) := by
  unfold State.takeTail State.settleShadow
  split
  · exact .refl t
  case h_2 sh hsh =>
    split
    · exact .refl t
    · split
      case isTrue good =>
        split
        case isTrue present => exact .installed h check a sh t rfl (.refl t) hsh hsh ht good present (.refl _)
        case isFalse => exact .chain (.expelled _ _ _ (.inl rfl) (.inl ht))
      · exact .quiet t.dropShadow_quiet

theorem execSnapTail_does (origin : Origin Word) (a : Answers) (s : State) :
    ∃ t, execSnapTail origin a s = .next t ∧ Does (.snapTail origin a) s t := by
  refine ⟨_, rfl, ?_⟩
  cases origin with
  | own =>
    exact s.ownFrameEnds_does .snapTail a fun src _ t =>
      .quiet ((t.endSource_quiet src).trans ((State.finishTrain_quiet _).trans (State.restartHeartbeatTimer_quiet _)))
  | heard h check => exact State.receive_does_plain (by nofun) s .snapTail h (wordBytes check) a none fun t ht => State.takeTail_does ht h check a

/-! ### Contention -/

theorem execOffer_quiet (s : State) : ∃ t, execOffer s = .next t ∧ s.Quiet t := by
  refine ⟨_, rfl, .ite (fun h => ?_) fun _ => .refl s⟩
  simp only [Bool.and_eq_true] at h
  split
  · exact State.beginOffer_quiet h.1.1.1.1 ..
  · exact .refl s

theorem execArbitrationLost_quiet (s : State) (slot : Nat) : ∃ t, execArbitrationLost s slot = .next t ∧ s.Quiet t := by
  refine ⟨_, rfl, ?_⟩
  cases ho : s.cont.offer with
  | none => exact .refl s
  | some o =>
    refine .ite (fun _ => ?_) fun _ => .refl s
    exact .of_rest (fun h => State.lineLaw_of_idle (s.idle_of_offer h ho)) (List.Sublist.refl _) (fun h => h) (.inr rfl)
      (s.cont.stopArbitration_offer_cases _) rfl rfl rfl rfl rfl

theorem execBitError_local (slot : Nat) (s : State) : ∃ t, execBitError slot s = .next t ∧ Local host s t := by
  refine ⟨_, rfl, ?_⟩
  cases ho : s.cont.offer with
  | none => exact .refl s
  | some o =>
    dsimp only
    split
    case isFalse => exact .refl s
    case isTrue =>
      have failed : Local host s _ := .trans (.quiet (s.passArbitration_quiet.trans (State.frameEnds_quiet _ .empty
        (slotsCheck ((s.offerSlots o).take slot)) none))) (State.failAttempt_local _ o.source)
      split
      case isTrue hj =>
        -- The offer is cleared before the station is refused; the other order gives the same state.
        refine .trans (failed.trans (.expelled _ _ _ (.inr rfl) (.inr ?_))) (.quiet (State.clearOffer_quiet _))
        simpa [hj, State.failAttempt] using State.passArbitration_offer_ne_none (s := s) (by simp [ho])
      case isFalse => exact failed.trans (.quiet (State.clearOffer_quiet _))

/-- What the owner of an abandoned frame does (Table 4-6). -/
theorem State.abandonSource_local (s : State) (src : OfferSource) : Local host s (s.abandonSource src) := by
  cases src with
  | entry tag =>
    refine .completed _ _ fun c _ hd => ?_
    by_contra hne
    simp [Context.decided, hne] at hd
  | heartbeat =>
    exact .quiet (.of_rest_line (List.Sublist.refl _) (fun ⟨ht, hs, hj, hl, _, hr⟩ => ⟨ht, hs, hj, hl, Nat.zero_le _, hr⟩) (.inr rfl) (.inr rfl)
      rfl rfl rfl rfl rfl rfl)
  | reap =>
    exact .quiet (s.cont_quiet (List.Sublist.refl _) (fun ⟨ht, hs, hj, hl, hh, _⟩ => ⟨ht, hs, hj, hl, hh, Nat.zero_le _⟩) (.inr rfl))
  | join =>
    unfold State.abandonSource
    dsimp only
    split
    · exact .listening (.inl ‹_›)
    · exact .quiet (s.cont_quiet (List.Sublist.refl _) (fun ⟨ht, hs, _, hl, hh, hr⟩ => ⟨ht, hs, Nat.zero_le _, hl, hh, hr⟩) (.inr rfl))
  | leave =>
    unfold State.abandonSource
    dsimp only
    split
    · exact .departed _ ‹_›
    · exact .quiet (s.cont_quiet (List.Sublist.refl _) (fun ⟨ht, hs, hj, _, hh, hr⟩ => ⟨ht, hs, hj, Nat.zero_le _, hh, hr⟩) (.inr rfl))
  | syncReq =>
    exact .quiet (.of_rest_line (List.Sublist.refl _) (fun ⟨ht, _, hj, hl, hh, hr⟩ => ⟨ht, Nat.zero_le _, hj, hl, hh, hr⟩) (.inr rfl) (.inr rfl)
      rfl rfl rfl rfl rfl rfl)
  | train =>
    refine .quiet (.ite (fun _ => (s.cont_quiet (c := { s.cont with silent := s.cont.hold.isSome }) (List.Sublist.refl _) (fun h => h) (.inr rfl)).trans
      (State.endTrain_quiet _)) fun _ => ?_)
    exact .of_rest_line (List.Sublist.refl _) s.cont.clearTrainIntent_bounded (.inr rfl) s.cont.clearTrainIntent_offer rfl rfl rfl rfl rfl rfl

theorem execAbandon_local (s : State) : ∃ t, execAbandon s = .next t ∧ Local host s t := by
  refine ⟨_, rfl, ?_⟩
  cases s.abandonDue with
  | none => exact .refl s
  | some src => exact (s.abandonSource_local src).then_quiet (State.raise_quiet ..)

/-! ### Events -/

theorem execGlitch_quiet (s : State) (slots : Nat) : ∃ t, execGlitch s slots = .next t ∧ s.Quiet t := by
  refine ⟨_, rfl, .ite (fun hoff => ?_) fun _ => .ite (fun hf => ?_) fun _ => .ite (fun _ => ?_) fun _ => ?_⟩
  · exact s.line_quiet fun h => State.lineLaw_of_idle (h (.inl (by simpa [State.active] using hoff)))
  · exact s.line_quiet fun h => State.lineLaw_of_idle (h (.inr (.inl hf)))
  · exact s.line_quiet fun _ => State.lineLaw_of_idle rfl
  · exact s.line_quiet fun _ => State.lineLaw_of_idle (by dsimp only; split <;> rfl)

theorem execTruncation_quiet (bits : List Bool) (s : State) : ∃ t, execTruncation bits s = .next t ∧ s.Quiet t :=
  ⟨_, rfl, .ite (fun _ => .refl s) fun _ =>
    (s.loseArbitration_quiet.trans (State.frameEnds_quiet ..)).trans (State.countBad_quiet ..)⟩

theorem execRoundEnd_quiet (s : State) : ∃ t, execRoundEnd s = .next t ∧ s.Quiet t := by
  refine ⟨_, rfl, .ite (fun h => ?_) fun _ => .refl s⟩
  obtain ⟨hact, hidle⟩ := Bool.and_eq_true_iff.1 h
  exact .of_rest (fun _ => State.lineLaw_of_idle_line (s.active_iff.1 hact) hidle rfl rfl (LineUnit.idleAt_isFilling _ _) (Nat.le_refl _))
    (List.Sublist.refl _) (fun h => h) (.inr rfl) (.inr rfl) rfl rfl rfl rfl rfl

theorem execHoldTimeout_quiet (s : State) : ∃ t, execHoldTimeout s = .next t ∧ s.Quiet t := by
  refine ⟨_, rfl, ?_⟩
  split
  · refine .ite (fun h => ?_) fun _ => .refl s
    obtain ⟨hact, hidle⟩ := Bool.and_eq_true_iff.1 h
    exact (State.idleTo_quiet hact hidle _).trans (State.abandonHold_quiet ..)
  · exact .refl s

theorem execHeartbeatDue_quiet (s : State) : ∃ t, execHeartbeatDue s = .next t ∧ s.Quiet t := by
  refine ⟨_, rfl, ?_⟩
  split
  · refine .of_rest_line (List.Sublist.refl _) (fun h => ?_) (.inr rfl) (.inr rfl) rfl rfl rfl rfl rfl rfl
    obtain ⟨ht, hs, hj, hl, -, hr⟩ := id h
    dsimp only
    split
    · exact h
    · exact ⟨ht, hs, hj, hl, Nat.zero_le _, hr⟩
  · exact .refl s

theorem execRetryTimerExpiry_quiet (s : State) : ∃ t, execRetryTimerExpiry s = .next t ∧ s.Quiet t := by
  refine ⟨_, rfl, ?_⟩
  split
  · exact .of_rest_line (List.Sublist.refl _) (fun h => h) (.inr rfl) (.inr rfl) rfl rfl rfl rfl rfl rfl
  · exact .refl s

/-! ### Every command -/

/-- The answer of a command that does something local. -/
theorem answers_local {o : Host.Outcome State Fault Refusal} {s : State} (h : ∃ t, o = .next t ∧ Local (Instr.fromHost c) s t) :
    ∃ t, o = .next t ∧ Does c s t := let ⟨t, ho, hl⟩ := h; ⟨t, ho, .chain hl⟩

/-- The answer of a command that does bookkeeping alone. -/
theorem answers_quiet {o : Host.Outcome State Fault Refusal} {s : State} (h : ∃ t, o = .next t ∧ s.Quiet t) :
    ∃ t, o = .next t ∧ Does c s t := let ⟨t, ho, hq⟩ := h; ⟨t, ho, .quiet hq⟩

/-- Every command other than HARDWARE_RESET answers a next state, and does what `Does` lists. -/
theorem exec_does {c : Instr} (hc : ∀ straps, c ≠ .hardwareReset straps) (s : State) : ∃ t, exec c s = .next t ∧ Does c s t := by
  cases c with
  | hardwareReset straps => exact absurd rfl (hc straps)
  | readStatus spi | readEntry _ spi | readRoster spi => exact ⟨_, rfl, .chain (.transact s spi fun _ => .shiftOut ..)⟩
  | take spi => exact answers_local (execTake_local s spi)
  | takeRecordRemoval =>
    refine ⟨_, rfl, .chain ?_⟩
    split
    · exact .removed _ rfl ‹_›
    · exact .refl s
  | submit r spi => exact answers_local (execSubmit_local r s spi)
  | cancel tag spi =>
    refine ⟨_, rfl, .chain (.transact s spi fun after => ?_)⟩
    split
    · exact .answerStatus (s.endByCause_local tag _) ..
    · exact .answerStatus (.refl s) ..
  | clearFlags _ spi | writeMasks _ _ spi =>
    exact ⟨_, rfl, .chain (.transact s spi fun after => .port _ rfl (.inl rfl) rfl (.inl rfl))⟩
  | writeConfig offset count data spi => exact answers_local (execWriteConfig_local offset count data s spi)
  | start spi => exact answers_local (execStart_local s spi)
  | portLeave spi =>
    refine ⟨_, rfl, .chain (.transact s spi fun after => ?_)⟩
    split
    · exact .answerStatus (.leaving ‹_›) ..
    · exact .answerStatus (.refl s) ..
  | rejoin spi =>
    refine ⟨_, rfl, .chain (.transact s spi fun after => ?_)⟩
    split
    · exact .answerStatus (.listening (.inr ‹_›)) ..
    · exact .answerStatus (.refl s) ..
  | restart spi =>
    refine ⟨_, rfl, .chain (.transact s spi fun after => ?_)⟩
    split
    · exact .answerStatus (.refl s) ..
    · exact .restart after ‹_›
  | unknownTransactionCode code spi =>
    refine ⟨_, rfl, .chain ?_⟩
    split
    · exact .refl s
    · exact .transact s spi fun _ => .shiftOut ..
  | transactionCutShort bytes spi => exact answers_local (execTransactionCutShort_local bytes s spi)
  | offer => exact answers_quiet (execOffer_quiet s)
  | arbitrationLost slot => exact answers_quiet (execArbitrationLost_quiet s slot)
  | arbitrationPassed => exact ⟨_, rfl, .quiet s.passArbitration_quiet⟩
  | bitError slot => exact answers_local (execBitError_local slot s)
  | join origin a => exact execJoin_does origin a s
  | leave origin a | heartbeat origin a | reap origin a | claim origin a | release origin a | withdraw origin a | downgrade origin a =>
    refine ⟨_, rfl, s.stateFrameEnds_does _ origin a _ _ _ ?_ ?_⟩
    · rintro h b rfl; exact ⟨rfl, rfl⟩
    · rintro rfl; exact ⟨rfl, rfl⟩
  | syncReq origin a => exact execSyncReq_does origin a s
  | snapHead origin a => exact execSnapHead_does origin a s
  | snapEntry origin a => exact execSnapEntry_does origin a s
  | snapTail origin a => exact execSnapTail_does origin a s
  | formatError f => exact ⟨_, rfl, .quiet (.ite (fun _ => .refl s) fun _ => s.badFrame_quiet _)⟩
  | truncation bits => exact answers_quiet (execTruncation_quiet bits s)
  | receiveOverrun f =>
    exact ⟨_, rfl, .quiet (.ite (fun _ => (s.frameEnds_quiet ..).trans (State.countBad_quiet ..)) fun _ => .refl s)⟩
  | roundEnd => exact answers_quiet (execRoundEnd_quiet s)
  | holdTimeout => exact answers_quiet (execHoldTimeout_quiet s)
  | leaseExpired x =>
    exact ⟨_, rfl, .quiet (.ite (fun _ => .of_rest_cont (.inr rfl) rfl rfl rfl rfl rfl rfl rfl) fun _ => .refl s)⟩
  | heartbeatDue => exact answers_quiet (execHeartbeatDue_quiet s)
  | retryTimerExpiry => exact answers_quiet (execRetryTimerExpiry_quiet s)
  | joinWaitElapsed =>
    refine ⟨_, rfl, .chain ?_⟩
    split
    · exact .joining ‹_›
    · exact .refl s
  | waitTimerExpiry tag =>
    refine ⟨_, rfl, .chain ?_⟩
    split
    · exact s.endByCause_local tag _
    · exact .refl s
  | abandon => exact answers_local (execAbandon_local s)
  | enterMuted =>
    refine ⟨_, rfl, .chain ?_⟩
    split
    case isTrue h =>
      simp only [Bool.and_eq_true, decide_eq_true_eq] at h
      exact .muted h.1 h.2
    case isFalse => exact .refl s
  | recovery =>
    refine ⟨_, rfl, .chain ?_⟩
    split
    case isTrue h => exact .recovered h.1
    case isFalse => exact .refl s
  | glitch slots => exact answers_quiet (execGlitch_quiet s slots)

end Sys2Proof.Machine
end

section
/-! The laws that every step keeps: how a law is shown to be kept, and the laws of the queue of commands, the host's settings, the station
state, the table sequence and the waiter pool. -/

namespace Sys2Proof.Machine

variable {host : Bool} {c : Instr}

/-! ### What a law must survive -/

/-- The station right after HARDWARE_RESET (R122). -/
def State.afterReset (s : State) (straps : BitVec 4) : State :=
  { State.reset with ctl := { StationController.reset (stationOf straps) with nonceDraws := s.ctl.nonceDraws }, line := s.line.restarted,
                     pending := s.pending }

/-- A law that holds after hardware reset, does not read the queue of commands, and is kept by every change of a command but the
installation of another station's table. -/
structure KeptBeforeInstall (P : State → Prop) : Prop where
  pending : ∀ (s : State) (l : List Instr), P s → P { s with pending := l }
  reset : ∀ (s : State) (straps : BitVec 4), P (s.afterReset straps)
  chain : ∀ {host : Bool} {s t : State}, Local host s t → P s → P t
  heard : ∀ {s : State} (x : Station) (b : StateBody), s.ctl.state.applies = true → x ≠ s.ctl.number → P s →
    P (s.applyFrame false none x b)
  clash : ∀ {s : State} (b : StateBody), s.ctl.state.applies = true → P s →
    P ((s.applyFrame false none s.ctl.number b).expel .refused .clash 0#16)
  own : ∀ {s : State} (src : OfferSource) (b : StateBody), s.ctl.state.applies = true → P s →
    P ((s.endSource src).applyFrame true src.tag s.ctl.number b)
  founds : ∀ {s : State}, s.ctl.state = .joining → P s → P s.founds

/-- A law that survives an installation too. -/
structure Kept (P : State → Prop) : Prop extends KeptBeforeInstall P where
  installs : ∀ {s : State} (sh : Shadow) (check : Word), s.sync.shadow = some sh → s.ctl.state ≠ .offline → sh.good s.tableSize check = true →
    sh.roster[s.ctl.number] = .present → P s → P (s.install sh)

/-- One step, seen from the laws: the part's own turn, a hardware reset, or a command that does what `Does` lists. -/
theorem step_cases {s t : State} (h : step s = .next t) :
    (∃ (u : State) (l : List Instr), s.Quiet u ∧ t = { u with pending := l }) ∨
    (∃ (straps : BitVec 4) (rest : List Instr), t = ({ s with pending := rest } : State).afterReset straps) ∨
    ∃ (c : Instr) (rest : List Instr), s.pending = c :: rest ∧ Does c { s with pending := rest } t := by
  unfold step at h
  split at h
  case h_1 hp =>
    obtain rfl := Host.Outcome.next.inj h
    refine .inl ?_
    unfold State.tick
    split
    · exact ⟨s, s.pending, .refl s, rfl⟩
    · split
      · exact ⟨s, s.dueSteps, .refl s, rfl⟩
      · exact ⟨s.passSlot, s.slotEvents, State.passSlot_quiet (by simpa using ‹¬(!s.active) = true›), rfl⟩
  case h_2 c rest hp =>
    by_cases hc : ∃ straps, c = .hardwareReset straps
    · obtain ⟨straps, rfl⟩ := hc
      exact .inr (.inl ⟨straps, rest, (Host.Outcome.next.inj h).symm⟩)
    · obtain ⟨u, hu, does⟩ := exec_does (fun straps he => hc ⟨straps, he⟩) { s with pending := rest }
      obtain rfl : t = u := Host.Outcome.next.inj (h.symm.trans hu)
      exact .inr (.inr ⟨c, rest, hp, does⟩)

theorem KeptBeforeInstall.does {P : State → Prop} (h : KeptBeforeInstall P) {s t : State} (hd : Does c s t) (hs : P s)
    (installs : ∀ (hd : Head) (check : Word) (a : Answers) (sh : Shadow) (u : State), c = .snapTail (.heard hd check) a →
      u.sync.shadow = some sh → u.ctl.state ≠ .offline → sh.good u.tableSize check = true → sh.roster[u.ctl.number] = .present → P u →
      P (u.install sh)) : P t := by
  cases hd with
  | chain k => exact h.chain k hs
  | heard f b u hf hb before ha hx after => exact h.chain after (h.heard f.head.station b ha hx (h.chain before hs))
  | clash f b u hf hb before ha after => exact h.chain after (h.clash b ha (h.chain before hs))
  | own k a src b u hc hk before ha after => exact h.chain after (h.own src b ha (h.chain before hs))
  | founded a u hc before hj after => exact after ▸ h.founds hj (h.chain before hs)
  | installed hd check a sh u hc before hss hu begun good present after =>
    exact h.chain after (installs hd check a sh u hc hu begun good present (h.chain before hs))

/-- A law kept by every change but an installation is kept by every step but a SNAP_TAIL heard. -/
theorem KeptBeforeInstall.step {P : State → Prop} (h : KeptBeforeInstall P) {s t : State} (hs : P s)
    (noTail : ∀ (hd : Head) (check : Word) (a : Answers) (rest : List Instr), s.pending ≠ .snapTail (.heard hd check) a :: rest)
    (ht : step s = .next t) : P t := by
  rcases step_cases ht with ⟨u, l, hq, rfl⟩ | ⟨straps, rest, rfl⟩ | ⟨c, rest, hp, hd⟩
  · exact h.pending _ _ (h.chain (.quiet (host := false) hq) hs)
  · exact h.reset _ _
  · refine h.does hd (h.pending _ _ hs) fun hd check a sh u hc => ?_
    exact absurd (hc ▸ hp) (noTail hd check a rest)

theorem Kept.does {P : State → Prop} (h : Kept P) {s t : State} (hd : Does c s t) (hs : P s) : P t :=
  h.toKeptBeforeInstall.does hd hs fun _ check _ sh _ _ hsh ho good present hu => h.installs sh check hsh ho good present hu

/-- A law kept by every change is kept by every step. -/
theorem Kept.step {P : State → Prop} (h : Kept P) {s t : State} (hs : P s) (ht : step s = .next t) : P t := by
  rcases step_cases ht with ⟨u, l, hq, rfl⟩ | ⟨straps, rest, rfl⟩ | ⟨c, rest, hp, hd⟩
  · exact h.pending _ _ (h.chain (.quiet (host := false) hq) hs)
  · exact h.reset _ _
  · exact h.does hd (h.pending _ _ hs)

end Sys2Proof.Machine
end

section
/-! The queue of commands, the host's settings, the station state, the table sequence. -/

namespace Sys2Proof.Machine

variable {host : Bool} {c : Instr}

/-! ### The queue of commands -/

theorem State.applyFrame_pending (s : State) (own : Bool) (tag : Option Byte) (sender : Station) (b : StateBody) :
    (s.applyFrame own tag sender b).pending = s.pending := by
  rw [State.applyFrame_eq_applied]
  split <;> simp

theorem Local.pending {s t : State} (h : Local host s t) : t.pending = s.pending := by
  induction h with
  | quiet h => exact h.pending
  | trans _ _ ih ih' => exact ih'.trans ih
  | muted => unfold State.enterMuted; dsimp only; split <;> rfl
  | lostStep | accepted | expelled => simp
  | _ => rfl

theorem Does.pending {s t : State} (h : Does c s t) : t.pending = s.pending := by
  cases h with
  | chain h => exact h.pending
  | heard f b u hf hb before h hx after => rw [after.pending, State.applyFrame_pending, before.pending]
  | clash f b u hf hb before h after => rw [after.pending, State.expel_pending, State.applyFrame_pending, before.pending]
  | own k a src b u hc hk before h after => rw [after.pending, State.applyFrame_pending, State.endSource_pending, before.pending]
  | founded a u hc before hj after => exact (congrArg State.pending after).trans before.pending
  | installed hd check a sh u hc before hs hu begun good present after => exact after.pending.trans before.pending

/-- Settles O3: hardware reset keeps the queue as it writes it, and every other command does what `Does` lists. -/
theorem everyCommandAnswersANextStateAndLeavesTheQueue : Obligations.EveryCommandAnswersANextStateAndLeavesTheQueue := by
  unfold Obligations.EveryCommandAnswersANextStateAndLeavesTheQueue
  intro c s
  by_cases hc : ∃ straps, c = .hardwareReset straps
  · obtain ⟨straps, rfl⟩ := hc
    exact ⟨_, rfl, rfl⟩
  · obtain ⟨t, ht, hd⟩ := exec_does (fun straps he => hc ⟨straps, he⟩) s
    exact ⟨t, ht, hd.pending⟩

/-! ### The host's settings -/

/-- The host's settings stay, what a transaction left on the port too, and no flag is cleared. -/
structure PortUnit.SettingsKept (p q : PortUnit) : Prop where
  config : q.config = p.config
  locked : q.locked = p.locked
  digest : q.digest = p.digest
  masks : q.masks = p.masks
  notice : q.notice = p.notice
  sdo : q.sdo = p.sdo
  capture : q.capture = p.capture
  selected : q.selected = p.selected
  flags : ∀ f : EventFlag, p.flag f = true → q.flag f = true

theorem PortUnit.SettingsKept.refl (p : PortUnit) : p.SettingsKept p := ⟨rfl, rfl, rfl, rfl, rfl, rfl, rfl, rfl, fun _ h => h⟩

theorem PortUnit.SettingsKept.trans {p q r : PortUnit} (h : p.SettingsKept q) (k : q.SettingsKept r) : p.SettingsKept r :=
  ⟨k.config.trans h.config, k.locked.trans h.locked, k.digest.trans h.digest, k.masks.trans h.masks, k.notice.trans h.notice,
    k.sdo.trans h.sdo, k.capture.trans h.capture, k.selected.trans h.selected, fun f hf => k.flags f (h.flags f hf)⟩

theorem PortUnit.raise_settings (p : PortUnit) (f : EventFlag) : p.SettingsKept (p.raise f) :=
  ⟨rfl, rfl, rfl, rfl, rfl, rfl, rfl, rfl, fun g hg => by simp [hg]⟩

theorem State.Quiet.settings {s t : State} (h : s.Quiet t) : s.port.SettingsKept t.port := by
  have hp := h.port
  exact ⟨by rw [hp], by rw [hp], by rw [hp], by rw [hp], by rw [hp], by rw [hp], by rw [hp], by rw [hp], h.flags⟩

theorem State.expel_settings (s : State) (st : StationState) (f : EventFlag) (n : Word) : s.port.SettingsKept (s.expel st f n).port :=
  s.port.raise_settings f

/-- What the host did not cause leaves its settings. -/
theorem Local.settings {s t : State} (h : Local false s t) : s.port.SettingsKept t.port := by
  induction h with
  | quiet h => exact h.settings
  | trans _ _ ih ih' => exact ih.trans ih'
  | port _ hh | started hh | restarted hh | removed _ hh => cases hh
  | lostStep q => unfold State.loseStep; dsimp only; split
                  · exact .refl _
                  · exact PortUnit.raise_settings ..
  | muted => unfold State.enterMuted; dsimp only; split <;> exact PortUnit.raise_settings ..
  | expelled => exact State.expel_settings ..
  | _ => exact .refl _

/-- What the effects by kind of an apply do: the station is discarded, or at most a lease and a flag are set. -/
theorem State.afterApply_cases (s : State) (own : Bool) (before : Replica) (sender : Station) (n : Word) (b : StateBody) :
    (∃ st f, (st = .evicted ∨ st = .refused) ∧ s.afterApply own before sender n b = s.expel st f n) ∨
    (own = true ∧ b = .leave ∧ s.afterApply own before sender n b = s.depart n) ∨
    (s.Quiet (s.afterApply own before sender n b) ∧ (b = .leave → own = false) ∧ (b = .join → sender ≠ s.ctl.number) ∧
      ∀ target, b = .reap target → reapTarget target = some s.ctl.number → before.present s.ctl.number = false) := by
  cases b with
  | join =>
    dsimp only [State.afterApply]
    split
    · exact .inl ⟨_, _, .inr rfl, rfl⟩
    · exact .inr (.inr ⟨(s.setLease_quiet _ _).trans (State.raise_quiet ..), nofun, fun _ => ‹_›, nofun⟩)
  | leave =>
    cases own with
    | true => exact .inr (.inl ⟨rfl, rfl, rfl⟩)
    | false => exact .inr (.inr ⟨.refl s, fun _ => rfl, nofun, nofun⟩)
  | reap target =>
    dsimp only [State.afterApply]
    cases ht : reapTarget target with
    | none => exact .inr (.inr ⟨.refl s, nofun, nofun, fun x hx hr => by cases hx; simp [ht] at hr⟩)
    | some t =>
      dsimp only
      split
      · split
        case isTrue => exact .inl ⟨_, _, .inl rfl, rfl⟩
        case isFalse hn =>
          refine .inr (.inr ⟨s.raise_quiet _, nofun, nofun, fun x hx hr => ?_⟩)
          cases hx
          exact absurd (Option.some.inj (ht.symm.trans hr)) hn
      case isFalse hp =>
        refine .inr (.inr ⟨.refl s, nofun, nofun, fun x hx hr => ?_⟩)
        cases hx
        obtain rfl := Option.some.inj (ht.symm.trans hr)
        simpa using hp
  | claim | release | withdraw | downgrade | heartbeat => exact .inr (.inr ⟨.refl s, nofun, nofun, nofun⟩)

theorem State.applyFrame_settings (s : State) (own : Bool) (tag : Option Byte) (sender : Station) (b : StateBody) :
    s.port.SettingsKept (s.applyFrame own tag sender b).port := by
  have core : s.port.SettingsKept (s.applied own tag sender b).port := by rw [State.applied_port]; exact .refl _
  rw [State.applyFrame_eq_applied]
  split
  · rcases (s.applied own tag sender b).afterApply_cases own s.replica sender (s.replica.apply s.tableSize sender b).replica.sequence b with
      ⟨st, f, -, h⟩ | ⟨-, -, h⟩ | ⟨h, -⟩
    · rw [h]; exact core.trans (State.expel_settings ..)
    · rw [h]; exact core.trans (.refl _)
    · exact core.trans h.settings
  · exact core

/-- Settles O49: what a command the host did not cause leaves of the port, by what `Does` lists; the number by `exec_keeps_number`. -/
theorem eventsLeaveTheHostSettings : Obligations.EventsLeaveTheHostSettings := by
  unfold Obligations.EventsLeaveTheHostSettings
  intro c s t hc hx
  have notReset : ∀ straps, c ≠ .hardwareReset straps := by rintro straps rfl; cases hc
  obtain ⟨u, hu, hd⟩ := exec_does notReset s
  obtain rfl : t = u := Host.Outcome.next.inj (hx.symm.trans hu)
  obtain ⟨v, hv, hn⟩ := exec_keeps_number notReset s
  obtain rfl : t = v := Host.Outcome.next.inj (hx.symm.trans hv)
  have loc : ∀ {u v : State}, Local (Instr.fromHost c) u v → u.port.SettingsKept v.port := by rw [hc]; exact Local.settings
  have kept : s.port.SettingsKept t.port := by
    cases hd with
    | chain h => exact loc h
    | heard f b w hf hb before h hx after => exact (loc before).trans ((State.applyFrame_settings ..).trans (loc after))
    | clash f b w hf hb before h after =>
      exact (loc before).trans (((State.applyFrame_settings ..).trans (State.expel_settings ..)).trans (loc after))
    | own k a src b w hc hk before h after =>
      exact (loc before).trans ((w.endSource_quiet src).settings.trans ((State.applyFrame_settings ..).trans (loc after)))
    | founded a w hc before hj after =>
      have founds : w.port.SettingsKept w.founds.port := PortUnit.raise_settings ..
      exact (loc before).trans (after ▸ founds)
    | installed hd check a sh w hc before hs hu begun good present after =>
      have install : w.port.SettingsKept (w.install sh).port := PortUnit.raise_settings ..
      exact (loc before).trans (install.trans (loc after))
  exact ⟨kept.config, kept.locked, kept.digest, kept.masks, kept.notice, kept.sdo, kept.capture, kept.selected, hn, kept.flags⟩

/-! ### The replica and the table sequence -/

/-- A local change leaves the replica, makes it invalid, or discards it. -/
theorem Local.replica {s t : State} (h : Local host s t) :
    t.replica = Replica.empty ∨ t.replica = s.replica ∨ t.replica = { s.replica with valid := false } := by
  induction h with
  | quiet h => exact .inr (.inl h.replica)
  | trans _ _ ih ih' =>
    rcases ih' with h' | h' | h' <;> rw [h']
    · exact .inl rfl
    · exact ih
    · rcases ih with h | h | h <;> rw [h]
      · exact .inl rfl
      · exact .inr (.inr rfl)
      · exact .inr (.inr rfl)
  | restarted => exact .inl rfl
  | lostStep => exact .inr (.inr (by simp))
  | muted => exact .inr (.inr (by unfold State.enterMuted; dsimp only; split <;> rfl))
  | expelled => exact .inl (by simp)
  | departed => exact .inl rfl
  | _ => exact .inr (.inl rfl)

/-- A local change leaves the table sequence or discards the replica. -/
theorem Local.sequence {s t : State} (h : Local host s t) : t.replica.sequence = s.replica.sequence ∨ t.replica = Replica.empty := by
  rcases h.replica with h | h | h
  · exact .inr h
  · exact .inl (by rw [h])
  · exact .inl (by rw [h])

/-- An apply advances the table sequence, or the station is discarded with it. -/
theorem State.applyFrame_sequence (s : State) (own : Bool) (tag : Option Byte) (sender : Station) (b : StateBody) :
    (s.applyFrame own tag sender b).replica.sequence = s.replica.sequence + 1#16 ∨
    (s.applyFrame own tag sender b).replica = Replica.empty := by
  have advanced : (s.applied own tag sender b).replica.sequence = s.replica.sequence + 1#16 := by
    rw [State.applied_replica, (Replica.apply_sequence_valid ..).1]
  rw [State.applyFrame_eq_applied]
  split
  · rcases (s.applied own tag sender b).afterApply_cases own s.replica sender (s.replica.apply s.tableSize sender b).replica.sequence b with
      ⟨st, f, -, h⟩ | ⟨-, -, h⟩ | ⟨h, -⟩
    · rw [h]; exact .inr (by simp)
    · rw [h]; exact .inr (by simp)
    · exact .inl (by rw [h.replica, advanced])
  · exact .inl advanced

/-- A discarded replica stays in the empty form. -/
theorem Local.stays_empty {s t : State} (h : Local host s t) (hs : s.replica = Replica.empty) : t.replica = Replica.empty := by
  rcases h.replica with h | h | h
  · exact h
  · rw [h, hs]
  · rw [h, hs]; rfl

/-- IN_STEP and LEAVING are reached locally from IN_STEP and LEAVING alone, and the replica stays on the way. -/
theorem Local.of_applies {s t : State} (h : Local host s t) (ht : t.ctl.state.applies = true) :
    s.ctl.state.applies = true ∧ t.replica = s.replica := by
  induction h with
  | quiet h => exact ⟨h.state ▸ ht, h.replica⟩
  | trans _ _ ih ih' =>
    obtain ⟨hm, hr⟩ := ih' ht
    obtain ⟨hs, hr'⟩ := ih hm
    exact ⟨hs, hr.trans hr'⟩
  | leaving h => exact ⟨by rw [h]; rfl, by simp⟩
  | lostStep => simp [StationState.applies] at ht
  | expelled st f n h => rcases h with rfl | rfl <;> simp [StationState.applies] at ht
  | started | restarted | listening | joining | admitted | muted | recovered | departed => cases ht
  | port | accepted | removed | completed | withdrawn => exact ⟨ht, rfl⟩

theorem Replica.isEmptyForm_of_eq {r : Replica} (h : r = Replica.empty) : r.isEmptyForm := h ▸ Replica.empty_isEmptyForm

/-- Settles O50: what each part of a command's chain of changes does to the table sequence. -/
theorem sequenceMovesOnlyByApplyFoundInstallOrDiscard : Obligations.SequenceMovesOnlyByApplyFoundInstallOrDiscard := by
  unfold Obligations.SequenceMovesOnlyByApplyFoundInstallOrDiscard
  intro c s t hx
  have emptied : t.replica = Replica.empty → t.replica.isEmptyForm := Replica.isEmptyForm_of_eq
  by_cases hreset : ∃ straps, c = .hardwareReset straps
  · obtain ⟨straps, rfl⟩ := hreset
    obtain rfl := Host.Outcome.next.inj hx
    exact .inr (.inr (.inr (.inr (emptied rfl))))
  obtain ⟨u, hu, hd⟩ := exec_does (fun straps he => hreset ⟨straps, he⟩) s
  obtain rfl : t = u := Host.Outcome.next.inj (hx.symm.trans hu)
  -- An apply in the chain moves the sequence by one from where it stood, unless the replica is discarded with it.
  have applied : ∀ {u v : State}, Local (Instr.fromHost c) s u → (v.replica.sequence = u.replica.sequence + 1#16 ∨ v.replica = Replica.empty) →
      u.ctl.state.applies = true → Local (Instr.fromHost c) v t → t.replica.sequence = s.replica.sequence + 1#16 ∨ t.replica = Replica.empty := by
    intro u v before apply ha after
    have same : u.replica = s.replica := (before.of_applies ha).2
    rcases apply with h | h
    · exact after.sequence.imp_left fun k => by rw [k, h, same]
    · exact .inr (after.stays_empty h)
  cases hd with
  | chain h => exact h.sequence.imp_right fun h => .inr (.inr (.inr (emptied h)))
  | heard f b u hf hb before h hx after =>
    exact (applied before (u.applyFrame_sequence ..) h after).elim (fun h => .inr (.inl ⟨.inl ⟨f, b, hf, hb⟩, h⟩)) fun h => .inr (.inr (.inr (.inr (emptied h))))
  | clash f b u hf hb before h after =>
    exact .inr (.inr (.inr (.inr (emptied (after.stays_empty (by simp))))))
  | own k a src b u hc hk before h after =>
    refine (applied before ?_ h after).elim (fun h => .inr (.inl ⟨.inr ⟨k, a, hc, hk⟩, h⟩)) fun h => .inr (.inr (.inr (.inr (emptied h))))
    simpa using (u.endSource src).applyFrame_sequence true src.tag u.ctl.number b
  | founded a u hc before hj after => exact .inr (.inr (.inl ⟨a, hc, by rw [after]; rfl, by rw [after]; rfl⟩))
  | installed hd check a sh u hc before hs hu begun good present after =>
    rcases after.sequence with h | h
    · exact .inr (.inr (.inr (.inl ⟨hd, check, a, sh, hc, hs, h⟩)))
    · exact .inr (.inr (.inr (.inr (emptied h))))

end Sys2Proof.Machine
end

section
/-! The agreement of station state and replica (Table 7-1). -/

namespace Sys2Proof.Machine

variable {host : Bool}

/-! ### The roster through an apply -/

@[simp] theorem Replica.noEffect_replica (r : Replica) : r.noEffect.replica = r := rfl

theorem Replica.membership_of_roster {r r' : Replica} (h : r'.roster = r.roster) (y : Station) : r'.membership y = r.membership y := by
  unfold Replica.membership; rw [h]

/-- The roster after the effect of a state frame (Table 2-2): JOIN writes PRESENT, LEAVE ABSENT, REAP of a PRESENT target LAPSED. -/
theorem Replica.effect_membership (r : Replica) (ts : Nat) (x : Station) (b : StateBody) (y : Station) :
    (r.effect ts x b).replica.membership y =
      match b with
      | .join => if y = x then .present else r.membership y
      | .leave => if y = x then .absent else r.membership y
      | .reap target => if reapTarget target = some y ∧ r.membership y = .present then .lapsed else r.membership y
      | _ => r.membership y := by
  cases b with
  | claim | release | withdraw | downgrade | heartbeat => rfl
  | join =>
    simp only [Replica.effect]
    split
    case isTrue hp =>
      rw [Replica.membership_of_roster (r.removeStation_roster ts x)]
      split
      case isTrue he => subst he; simpa [Replica.present] using hp
      case isFalse => rfl
    case isFalse => rw [Replica.noEffect_replica, Replica.membership_setMembership]
  | leave =>
    simp only [Replica.effect]
    rw [Replica.membership_of_roster (Replica.removeStation_roster ..), Replica.membership_setMembership]
  | reap target =>
    simp only [Replica.effect]
    cases ht : reapTarget target with
    | none => simp
    | some t =>
      dsimp only
      split
      case isTrue hp =>
        have hp : r.membership t = .present := by simpa [Replica.present] using hp
        rw [Replica.membership_of_roster (Replica.removeStation_roster ..), Replica.membership_setMembership]
        by_cases he : y = t
        · subst he; simp [hp]
        · have : t ≠ y := fun h => he h.symm
          simp [he, this]
      case isFalse hp =>
        have hp : r.membership t ≠ .present := by simpa [Replica.present] using hp
        rw [Replica.noEffect_replica, if_neg]
        rintro ⟨he, hm⟩
        exact hp (Option.some.inj he ▸ hm)

theorem Replica.membership_sequence (r : Replica) (n : Word) (y : Station) : ({ r with sequence := n } : Replica).membership y = r.membership y := rfl

/-- The roster after an apply: the effect's for a frame that is admitted, and else as before. -/
theorem Replica.apply_membership (r : Replica) (ts : Nat) (x : Station) (b : StateBody) (y : Station) :
    (r.apply ts x b).replica.membership y =
      if r.admits x b then (r.effect ts x b).replica.membership y else r.membership y := by
  unfold Replica.apply
  rw [Replica.membership_sequence]
  split <;> rfl

/-- A PRESENT station stays PRESENT through an apply, but for its own LEAVE and a REAP of it, when they are admitted. -/
theorem Replica.apply_present {r : Replica} (ts : Nat) (x : Station) (b : StateBody) {y : Station} (hp : r.present y = true)
    (leave : r.admits x b = true → b = .leave → y ≠ x)
    (reap : r.admits x b = true → ∀ target, b = .reap target → reapTarget target ≠ some y) :
    (r.apply ts x b).replica.present y = true := by
  have hm : r.membership y = .present := by simpa [Replica.present] using hp
  suffices (r.apply ts x b).replica.membership y = .present by simpa [Replica.present] using this
  rw [Replica.apply_membership]
  split
  case isFalse => exact hm
  case isTrue ha =>
    rw [Replica.effect_membership]
    cases b with
    | join => dsimp only; split <;> first | rfl | exact hm
    | leave => dsimp only; rw [if_neg (leave ha rfl), hm]
    | reap target => dsimp only; rw [if_neg fun h => reap ha target rfl h.1, hm]
    | claim | release | withdraw | downgrade | heartbeat => exact hm

/-! ### The member law -/

/-- Outside the states with a replica of their own, an empty replica meets the law. -/
theorem State.memberLaw_of_empty {s : State} (h : s.replica = Replica.empty) (ha : s.ctl.state.applies = false) : s.memberLaw := by
  refine ⟨?_, fun h => by simp [ha] at h, fun _ => h⟩
  rw [h, ha]; rfl

/-- The law reads the replica, the station state and the number. -/
theorem State.memberLaw.congr {s t : State} (h : s.memberLaw) (hr : t.replica = s.replica) (hst : t.ctl.state = s.ctl.state)
    (hn : t.ctl.number = s.ctl.number) : t.memberLaw := by
  unfold State.memberLaw at *
  rwa [hr, hst, hn]

theorem StationState.not_applies_of_ended {st : StationState} (h : st.ended = true) : st.applies = false := by
  cases st <;> first | rfl | cases h

theorem StationState.emptyReplica_of_ended {st : StationState} (h : st.ended = true) : st.emptyReplica = true := by
  cases st <;> first | rfl | cases h

/-- With the table kept and validity gone, the law holds in OUT_OF_STEP and MUTED. -/
theorem State.memberLaw_of_invalid {s : State} (hv : s.replica.valid = false) (ha : s.ctl.state.applies = false)
    (he : s.ctl.state.emptyReplica = false) : s.memberLaw :=
  ⟨by rw [hv, ha], fun h => by simp [ha] at h, fun h => by simp [he] at h⟩

/-- Every local change keeps the law. -/
theorem Local.memberLaw {s t : State} (h : Local host s t) (hs : s.memberLaw) : t.memberLaw := by
  induction h with
  | quiet h => exact hs.congr h.replica h.state h.number
  | trans _ _ ih ih' => exact ih' (ih hs)
  | port | accepted | removed | completed | withdrawn => exact hs.congr rfl rfl rfl
  | started hh h => exact State.memberLaw_of_empty (hs.2.2 (by rw [h]; rfl)) rfl
  | restarted => exact State.memberLaw_of_empty rfl rfl
  | leaving h =>
    obtain ⟨hv, hp, -⟩ := hs
    exact ⟨hv.trans (by rw [h]; rfl), fun _ => hp (by rw [h]; rfl), nofun⟩
  | listening h =>
    refine State.memberLaw_of_empty (hs.2.2 ?_) rfl
    rcases h with h | h
    · rw [h]; rfl
    · exact StationState.emptyReplica_of_ended h
  | joining h => exact State.memberLaw_of_empty (hs.2.2 (by rw [h]; rfl)) rfl
  | admitted h => exact State.memberLaw_of_empty (hs.2.2 (by rw [h]; rfl)) rfl
  | lostStep q => exact State.memberLaw_of_invalid (by simp) (by simp; rfl) (by simp; rfl)
  | muted =>
    refine State.memberLaw_of_invalid ?_ rfl rfl
    unfold State.enterMuted; dsimp only; split <;> rfl
  | recovered h =>
    obtain ⟨hv, -, -⟩ := hs
    exact State.memberLaw_of_invalid (hv.trans (by rw [h]; rfl)) rfl rfl
  | expelled st f n h => exact State.memberLaw_of_empty (by simp) (by rcases h with rfl | rfl <;> simp <;> rfl)
  | departed => exact State.memberLaw_of_empty rfl rfl

/-- An apply keeps the law, unless it is the LEAVE of another card under the local number. -/
theorem State.applyFrame_memberLaw {s : State} (ha : s.ctl.state.applies = true) (hs : s.memberLaw) (own : Bool) (tag : Option Byte)
    (x : Station) (b : StateBody) (leave : b = .leave → own = false → x ≠ s.ctl.number) : (s.applyFrame own tag x b).memberLaw := by
  obtain ⟨hv, hp, -⟩ := hs
  -- Where the station goes on, the local record is PRESENT still.
  have goesOn : (s.replica.admits x b = true → b = .leave → s.ctl.number ≠ x) →
      (s.replica.admits x b = true → ∀ target, b = .reap target → reapTarget target ≠ some s.ctl.number) →
      (s.applied own tag x b).memberLaw := by
    intro hl hr
    refine ⟨?_, fun _ => ?_, fun he => ?_⟩
    · rw [State.applied_replica, State.applied_ctl, (Replica.apply_sequence_valid ..).2, hv]
    · rw [State.applied_replica, State.applied_ctl]
      exact Replica.apply_present _ x b (hp ha) hl hr
    · rw [State.applied_ctl] at he
      revert ha he
      cases s.ctl.state <;> simp [StationState.applies, StationState.emptyReplica]
  rw [State.applyFrame_eq_applied]
  split
  case isFalse hadm =>
    exact goesOn (fun h => absurd h hadm) fun h => absurd h hadm
  case isTrue hadm =>
    rcases (s.applied own tag x b).afterApply_cases own s.replica x (s.replica.apply s.tableSize x b).replica.sequence b with
      ⟨st, f, hst, h⟩ | ⟨-, -, h⟩ | ⟨h, hl, -, hr⟩
    · rw [h]; exact State.memberLaw_of_empty (by simp) (by rcases hst with rfl | rfl <;> simp <;> rfl)
    · rw [h]; exact State.memberLaw_of_empty rfl rfl
    · refine (goesOn (fun _ hb he => leave hb (hl hb) he.symm) fun _ target hb ht => ?_).congr h.replica h.state h.number
      have := hr target hb (by simpa using ht)
      simp [hp ha] at this

theorem PortUnit.founded_present (p : PortUnit) (x : Station) : (p.founded x).present x = true := by
  simp [Replica.present, Replica.membership, PortUnit.founded]

theorem memberLaw_kept : Kept State.memberLaw where
  pending s l h := h
  reset s straps := State.memberLaw_of_empty rfl rfl
  chain := Local.memberLaw
  heard x b ha hx hs := State.applyFrame_memberLaw ha hs false none x b fun _ _ => hx
  clash b ha hs := State.memberLaw_of_empty (by simp) (by simp; rfl)
  own src b ha hs := State.applyFrame_memberLaw (by simpa using ha) (hs.congr (by simp) (by simp) (by simp)) true _ _ b nofun
  founds := fun {s} hj hs => ⟨rfl, fun _ => s.port.founded_present s.ctl.number, nofun⟩
  installs sh check hsh ho good present hs :=
    ⟨rfl, fun _ => by simpa [Replica.present, Replica.membership, State.install, PortUnit.installed] using present, nofun⟩

/-- Settles O53: the law is kept by every kind of change a step is made of. -/
theorem stepKeepsTheMemberLaw : Obligations.StepKeepsTheMemberLaw := by
  unfold Obligations.StepKeepsTheMemberLaw
  exact fun s t hs ht => memberLaw_kept.step hs ht

end Sys2Proof.Machine
end

section
/-! The counts, the idle line, and OFFLINE. -/

namespace Sys2Proof.Machine

variable {host : Bool} {c : Instr}

/-! ### The counts -/

theorem StationController.bounded_of_zero {c : StationController} (hr : c.rejectCount = 0) (hc : c.cleanCount ≤ Config.cleanLimit)
    (hm : c.state ≠ .muted) : c.Bounded := ⟨by rw [hr]; exact Nat.zero_le _, hc, fun h => absurd h hm⟩

/-- A unit whose entries were all there, or are new, and whose station-frame counts are bounded. -/
theorem ContentionUnit.Bounded.of_entries {c d : ContentionUnit} (h : c.Bounded) (hl : ∀ e ∈ d.sendList, e ∈ c.sendList ∨ e.attempts = 0)
    (ha : d.attempts.Bounded) : d.Bounded := by
  refine ⟨fun e he => ?_, ha⟩
  rcases hl e he with h' | h'
  · exact h.1 e h'
  · rw [h']; exact Nat.zero_le _

theorem ContentionUnit.Bounded.removeEntries {c : ContentionUnit} (h : c.Bounded) (p : Byte → Bool) : (c.removeEntries p).Bounded :=
  h.of_entries (fun _ he => .inl ((c.removeEntries_sublist p).subset he)) h.2

theorem ContentionUnit.Bounded.addEntry {c : ContentionUnit} (h : c.Bounded) {e : SendEntry} (he : e.attempts = 0) : (c.addEntry e).Bounded := by
  refine h.of_entries (fun d hd => ?_) h.2
  rcases List.mem_append.1 hd with hd | hd
  · exact .inl hd
  · exact .inr (by rw [List.mem_singleton.1 hd]; exact he)

theorem State.enterEnd_cont_bounded (s : State) (st : StationState) : (s.enterEnd st).cont.Bounded :=
  ⟨by simp, AttemptCounts.zero_bounded⟩

theorem State.enterEnd_ctl_bounded (s : State) {st : StationState} (h : st ≠ .muted) : (s.enterEnd st).ctl.Bounded :=
  StationController.bounded_of_zero rfl (Nat.zero_le _) h

theorem ContentionUnit.leaveMember_keeps_bounded {c : ContentionUnit} (h : c.Bounded) : c.leaveMember.Bounded :=
  ⟨h.1, ContentionUnit.leaveMember_bounded h.2⟩

/-- The clean count and the reject count in a state other than MUTED. -/
theorem StationController.Bounded.to_state {c d : StationController} (h : c.Bounded) (hr : d.rejectCount = c.rejectCount ∨ d.rejectCount = 0)
    (hc : d.cleanCount = c.cleanCount) (hm : d.state ≠ .muted) : d.Bounded := by
  obtain ⟨h1, h2, -⟩ := h
  refine ⟨?_, hc ▸ h2, fun h => absurd h hm⟩
  rcases hr with hr | hr <;> rw [hr]
  · exact h1
  · exact Nat.zero_le _

theorem State.enterListening_countLaw {s : State} (hs : s.countLaw) : s.enterListening.countLaw := by
  obtain ⟨hctl, hl, ht, hsy, -, hle, hh, hr⟩ := (State.countLaw_iff _).1 hs
  exact (State.countLaw_iff _).2 ⟨hctl.to_state (.inr rfl) rfl nofun, hl, ht, hsy, Nat.zero_le _, hle, hh, hr⟩

theorem State.enterLeaving_countLaw {s : State} (hs : s.countLaw) : s.enterLeaving.countLaw := by
  obtain ⟨hctl, hcont⟩ := (State.countLaw_iff _).1 hs
  have left : s.cont.leaveMember.Bounded := ContentionUnit.leaveMember_keeps_bounded hcont
  have removed := left.removeEntries s.req.unsent
  refine (State.countLaw_iff _).2 ⟨hctl.to_state (.inl rfl) rfl nofun, fun e he => ?_, removed.2⟩
  obtain ⟨d, hd, rfl⟩ := List.mem_map.1 he
  exact removed.1 d hd

theorem State.loseStep_countLaw {s : State} (hs : s.countLaw) (q : Bool) : (s.loseStep q).countLaw := by
  obtain ⟨hctl, hcont⟩ := (State.countLaw_iff _).1 hs
  refine (State.countLaw_iff _).2 ⟨hctl.to_state (.inl (by simp)) (by simp) (by simp), ?_⟩
  have : (s.loseStep q).cont = { s.cont.leaveMember with syncReqPending := true } := by unfold State.loseStep; dsimp only; split <;> rfl
  rw [this]
  exact ⟨hcont.1, ContentionUnit.leaveMember_bounded hcont.2⟩

theorem State.enterMuted_countLaw {s : State} (hs : s.countLaw) (hn : Config.rejectLimit ≤ s.ctl.rejectCount) : s.enterMuted.countLaw := by
  obtain ⟨⟨hr, -, -⟩, hcont⟩ := (State.countLaw_iff _).1 hs
  have hctl : s.enterMuted.ctl = { s.ctl with state := .muted, cleanCount := 0 } := by
    unfold State.enterMuted; dsimp only; split <;> rfl
  refine (State.countLaw_iff _).2 ⟨by rw [hctl]; exact ⟨hr, Nat.zero_le _, fun _ => Nat.le_antisymm hr hn⟩, ?_⟩
  unfold State.enterMuted
  dsimp only
  split
  · exact ⟨hcont.1, ContentionUnit.clearSyncReq_bounded (ContentionUnit.leaveMember_bounded hcont.2)⟩
  · exact ⟨hcont.1, ContentionUnit.clearSyncReq_bounded hcont.2⟩

theorem State.expel_countLaw (s : State) {st : StationState} (h : st = .evicted ∨ st = .refused) (f : EventFlag) (n : Word) :
    (s.expel st f n).countLaw :=
  (State.countLaw_iff _).2 ⟨s.enterEnd_ctl_bounded (by rcases h with rfl | rfl <;> nofun), s.enterEnd_cont_bounded st⟩

theorem State.depart_countLaw (s : State) (n : Word) : (s.depart n).countLaw :=
  (State.countLaw_iff _).2 ⟨s.enterEnd_ctl_bounded nofun, s.enterEnd_cont_bounded .departed⟩

/-- The law reads the station controller and the contention unit. -/
theorem State.countLaw_of_units {s t : State} (hs : s.countLaw) (ctl : s.ctl.Bounded → t.ctl.Bounded)
    (cont : s.cont.Bounded → t.cont.Bounded) : t.countLaw := by
  obtain ⟨hctl, hcont⟩ := (State.countLaw_iff _).1 hs
  exact (State.countLaw_iff _).2 ⟨ctl hctl, cont hcont⟩

/-- Every local change keeps the bounds. -/
theorem Local.countLaw {s t : State} (h : Local host s t) (hs : s.countLaw) : t.countLaw := by
  induction h with
  | quiet h => exact h.countKept hs
  | trans _ _ ih ih' => exact ih' (ih hs)
  | port | removed => exact hs
  | started =>
    unfold State.started
    exact State.enterListening_countLaw hs
  | restarted =>
    refine (State.countLaw_iff _).2 ⟨StationController.bounded_of_zero rfl (Nat.zero_le _) nofun, ?_, AttemptCounts.zero_bounded⟩
    simp [State.restarted, ContentionUnit.reset]
  | leaving => exact State.enterLeaving_countLaw hs
  | accepted => exact State.countLaw_of_units hs (fun h => h) fun h => h.addEntry rfl
  | listening => exact State.enterListening_countLaw hs
  | joining =>
    exact State.countLaw_of_units hs (fun h => h.to_state (.inr rfl) rfl nofun)
      fun ⟨hl, ht, hsy, _, hle, hh, hr⟩ => ⟨hl, ht, hsy, Nat.zero_le _, hle, hh, hr⟩
  | admitted => exact State.countLaw_of_units hs (fun h => h.to_state (.inl rfl) rfl nofun) fun h => h
  | lostStep q => exact State.loseStep_countLaw hs q
  | muted _ hn => exact State.enterMuted_countLaw hs hn
  | recovered => exact State.countLaw_of_units hs (fun h => h.to_state (.inr rfl) rfl nofun) fun h => h
  | expelled st f n h => exact State.expel_countLaw _ h f n
  | departed n => exact State.depart_countLaw _ n
  | completed f p => exact State.countLaw_of_units hs (fun h => h) fun h => h.removeEntries p
  | withdrawn => exact State.countLaw_of_units hs (fun h => h) fun h => h.addEntry rfl

theorem State.takeOutcome_bounded {s : State} (h : s.cont.Bounded) (tag : Byte) (code : OutcomeCode) (g n : Word) :
    (s.takeOutcome tag code g n).cont.Bounded := by
  unfold State.takeOutcome
  repeat' split
  all_goals first | exact h | exact h.addEntry rfl

theorem State.notice_bounded {s : State} (h : s.cont.Bounded) (n : Word) (g : TableGrant) : (s.notice n g).cont.Bounded := by
  unfold State.notice
  split
  · dsimp only
    split
    · exact h.removeEntries _
    · exact h
  · exact h

/-- What each notice keeps, several keep. -/
theorem State.notices_keep {P : State → Prop} (hP : ∀ (s : State) (n : Word) (g : TableGrant), P s → P (s.notice n g)) {s : State}
    (hs : P s) (n : Word) (gs : List TableGrant) : P (gs.foldl (fun s g => s.notice n g) s) := by
  induction gs generalizing s with
  | nil => exact hs
  | cons g gs ih => exact ih (hP s n g hs)

theorem State.applied_countLaw {s : State} (hs : s.countLaw) (own : Bool) (tag : Option Byte) (x : Station) (b : StateBody) :
    (s.applied own tag x b).countLaw := by
  obtain ⟨hctl, hcont⟩ := (State.countLaw_iff _).1 hs
  refine (s.applied_quiet own tag x b).countKept ((State.countLaw_iff _).2 ⟨?_, ?_⟩)
  · rw [(State.notices_units ..).2.1]
    simpa using hctl
  · refine State.notices_keep (P := fun s => s.cont.Bounded) (fun s n g h => State.notice_bounded h n g) ?_ _ _
    unfold State.outcomeTaken
    split
    · refine State.takeOutcome_bounded ?_ ..
      exact hcont
    · exact hcont

theorem State.applyFrame_countLaw {s : State} (hs : s.countLaw) (own : Bool) (tag : Option Byte) (x : Station) (b : StateBody) :
    (s.applyFrame own tag x b).countLaw := by
  have core := State.applied_countLaw hs own tag x b
  rw [State.applyFrame_eq_applied]
  split
  · rcases (s.applied own tag x b).afterApply_cases own s.replica x (s.replica.apply s.tableSize x b).replica.sequence b with
      ⟨st, f, hst, h⟩ | ⟨-, -, h⟩ | ⟨h, -⟩
    · rw [h]; exact State.expel_countLaw _ hst ..
    · rw [h]; exact State.depart_countLaw ..
    · exact h.countKept core
  · exact core

theorem countLaw_kept : Kept State.countLaw where
  pending s l h := h
  reset s straps := (State.countLaw_iff _).2 ⟨StationController.bounded_of_zero rfl (Nat.zero_le _) nofun, nofun, AttemptCounts.zero_bounded⟩
  chain := Local.countLaw
  heard x b ha hx hs := State.applyFrame_countLaw hs ..
  clash b ha hs := State.expel_countLaw _ (.inr rfl) ..
  own src b ha hs := State.applyFrame_countLaw ((State.endSource_quiet _ src).countKept hs) ..
  founds hj hs := State.countLaw_of_units hs (fun h => h.to_state (.inl rfl) rfl nofun)
    fun ⟨hl, ht, hsy, hjo, hle, _, hr⟩ => ⟨hl, ht, hsy, hjo, hle, Nat.zero_le _, hr⟩
  installs sh check hsh ho good present hs := by
    refine State.countLaw_of_units hs (fun h => h.to_state (.inl rfl) rfl nofun) fun h => ?_
    exact ⟨fun e he => h.1 e (List.mem_filter.1 he).1, ContentionUnit.clearSyncReq_bounded h.2⟩

/-! ### The idle line -/

theorem ContentionUnit.removeEntries_offer_cases (c : ContentionUnit) (p : Byte → Bool) :
    (c.removeEntries p).offer = none ∨ (c.removeEntries p).offer = c.offer := Option.filter_none_or_self ..

/-- An offer that was stopped, once or more than once, or stayed. -/
theorem offer_cases_trans {a b d : Option Offer} (h : b = none ∨ b = a) (k : d = none ∨ d = b) : d = none ∨ d = a := by
  rcases k with k | k
  · exact .inl k
  · rw [k]; exact h

theorem State.enterEnd_offer (s : State) (st : StationState) : (s.enterEnd st).cont.offer = none ∨ (s.enterEnd st).cont.offer = s.cont.offer :=
  offer_cases_trans (Option.filter_none_or_self ..) (ContentionUnit.removeEntries_offer_cases ..)

/-- The line law where the line stays, no offer begins, and the station does not enter OFFLINE. -/
theorem State.lineLaw.congr {s t : State} (h : s.lineLaw) (hst : t.ctl.state = .offline → s.ctl.state = .offline) (hline : t.line = s.line)
    (hoffer : t.cont.offer = none ∨ t.cont.offer = s.cont.offer) : t.lineLaw := State.lineLaw_congr hst hline hoffer h

theorem State.expel_lineLaw {s : State} (hs : s.lineLaw) {st : StationState} (h : st = .evicted ∨ st = .refused) (f : EventFlag) (n : Word) :
    (s.expel st f n).lineLaw :=
  hs.congr (by rcases h with rfl | rfl <;> simp) (by simp) (s.enterEnd_offer st)

theorem State.depart_lineLaw {s : State} (hs : s.lineLaw) (n : Word) : (s.depart n).lineLaw :=
  hs.congr nofun rfl (s.enterEnd_offer .departed)

theorem Local.lineLaw {s t : State} (h : Local host s t) (hs : s.lineLaw) : t.lineLaw := by
  induction h with
  | quiet h => exact h.lineKept hs
  | trans _ _ ih ih' => exact ih' (ih hs)
  | port | removed | accepted | withdrawn => exact hs
  | started => exact State.lineLaw_of_idle rfl
  | restarted => exact State.lineLaw_of_idle rfl
  | leaving =>
    exact hs.congr nofun (by simp) (offer_cases_trans (ContentionUnit.leaveMember_offer _) (ContentionUnit.removeEntries_offer_cases ..))
  | listening => exact hs.congr nofun rfl (Option.filter_none_or_self ..)
  | joining | admitted | recovered => exact hs.congr nofun rfl (.inr rfl)
  | lostStep q =>
    refine hs.congr (by simp) (by simp) ?_
    unfold State.loseStep
    dsimp only
    split <;> exact ContentionUnit.leaveMember_offer _
  | muted =>
    refine hs.congr nofun (by unfold State.enterMuted; dsimp only; split <;> rfl) ?_
    unfold State.enterMuted
    dsimp only
    split
    · exact offer_cases_trans (ContentionUnit.leaveMember_offer _) (ContentionUnit.clearSyncReq_offer _)
    · exact ContentionUnit.clearSyncReq_offer _
  | expelled st f n h => exact State.expel_lineLaw hs h f n
  | departed n => exact State.depart_lineLaw hs n
  | completed f p => exact hs.congr (fun h => h) rfl (ContentionUnit.removeEntries_offer_cases ..)

theorem State.notice_offer (s : State) (n : Word) (g : TableGrant) : (s.notice n g).cont.offer = none ∨ (s.notice n g).cont.offer = s.cont.offer := by
  unfold State.notice
  split
  · dsimp only
    split
    · exact ContentionUnit.removeEntries_offer_cases ..
    · exact .inr rfl
  · exact .inr rfl

theorem State.notices_offer (s : State) (n : Word) (gs : List TableGrant) :
    (gs.foldl (fun s g => s.notice n g) s).cont.offer = none ∨ (gs.foldl (fun s g => s.notice n g) s).cont.offer = s.cont.offer :=
  State.notices_keep (P := fun t => t.cont.offer = none ∨ t.cont.offer = s.cont.offer)
    (fun t n g h => offer_cases_trans h (t.notice_offer n g)) (.inr rfl) n gs

theorem State.applyFrame_lineLaw {s : State} (hs : s.lineLaw) (own : Bool) (tag : Option Byte) (x : Station)
    (b : StateBody) : (s.applyFrame own tag x b).lineLaw := by
  have core : (s.applied own tag x b).lineLaw := by
    refine (s.applied_quiet own tag x b).lineKept (hs.congr (fun h => ?_) ?_ ?_)
    · rw [(State.notices_units ..).2.1] at h
      simpa using h
    · rw [(State.notices_units ..).2.2.1]
      simp
    · exact offer_cases_trans (.inr (by simp)) (State.notices_offer ..)
  rw [State.applyFrame_eq_applied]
  split
  · rcases (s.applied own tag x b).afterApply_cases own s.replica x (s.replica.apply s.tableSize x b).replica.sequence b with
      ⟨st, f, hst, h⟩ | ⟨-, -, h⟩ | ⟨h, -⟩
    · rw [h]; exact State.expel_lineLaw core hst _ _
    · rw [h]; exact State.depart_lineLaw core _
    · exact h.lineKept core
  · exact core

theorem lineLaw_kept : Kept State.lineLaw where
  pending _ _ h := h
  reset _ _ := State.lineLaw_of_idle rfl
  chain := Local.lineLaw
  heard _ _ _ _ hs := State.applyFrame_lineLaw hs _ _ _ _
  clash _ _ hs := State.expel_lineLaw (State.applyFrame_lineLaw hs _ _ _ _) (.inr rfl) _ _
  own src _ _ hs := State.applyFrame_lineLaw ((State.endSource_quiet _ src).lineKept hs) _ _ _ _
  founds _ hs := hs.congr nofun rfl (.inr rfl)
  installs _ _ _ _ _ _ hs :=
    hs.congr nofun rfl (offer_cases_trans (ContentionUnit.clearSyncReq_offer _) (ContentionUnit.removeEntries_offer_cases ..))

/-! ### OFFLINE -/

/-- Past START the law of OFFLINE is the closed lock alone. -/
theorem State.offlineLaw_iff_of_begun {s : State} (h : s.ctl.state ≠ .offline) : s.offlineLaw ↔ s.port.locked = true := by
  unfold State.offlineLaw
  simp [h]

theorem State.submitStatus_begun {s : State} {r : RequestRecord} (h : s.submitStatus r = .accepted) : s.ctl.state ≠ .offline := by
  intro ho
  simp [State.submitStatus, ho, StationState.member] at h

/-- In OFFLINE a local change leaves the contention unit and the contexts at rest, or it is START. -/
theorem Local.offlineLaw {s t : State} (h : Local host s t) (hs : s.offlineLaw) : t.offlineLaw := by
  have started_or_begun : ∀ {s t : State}, Local host s t → s.ctl.state ≠ .offline → s.offlineLaw → t.offlineLaw := by
    intro s t h ho hs
    obtain ⟨ht, hl⟩ := h.begun ho
    rw [State.offlineLaw_iff_of_begun ht, hl]
    exact (State.offlineLaw_iff_of_begun ho).1 hs
  induction h with
  | @quiet s t h =>
    by_cases ho : s.ctl.state = .offline
    · obtain ⟨hl, hrest⟩ := hs
      obtain ⟨hidle, hoffer, hsend, hctx⟩ := hrest ho
      refine ⟨by rw [h.state, h.port]; exact hl, fun hst => ⟨h.lineKept (State.lineLaw_of_idle hidle) (.inl hst), h.offer ho hoffer, ?_, ?_⟩⟩
      · simpa [hsend] using h.sendList
      · obtain ⟨f, -, hreq⟩ := h.req
        rw [hreq, hctx]; rfl
    · exact started_or_begun (.quiet h) ho hs
  | trans _ _ ih ih' => exact ih' (ih hs)
  | port p hh capture locked =>
    obtain ⟨hl, hrest⟩ := hs
    exact ⟨by rw [← hl]; simp [locked], hrest⟩
  | started hh h => exact (State.offlineLaw_iff_of_begun (by simp [State.started])).2 rfl
  | removed r =>
    obtain ⟨hl, hrest⟩ := hs
    refine ⟨hl, fun ho => ?_⟩
    obtain ⟨hidle, hoffer, hsend, hctx⟩ := hrest ho
    exact ⟨hidle, hoffer, hsend, by simp [RequestUnit.take, hctx]⟩
  | completed f p =>
    obtain ⟨hl, hrest⟩ := hs
    refine ⟨hl, fun ho => ?_⟩
    obtain ⟨hidle, hoffer, hsend, hctx⟩ := hrest ho
    refine ⟨hidle, ?_, ?_, ?_⟩
    · rcases ContentionUnit.removeEntries_offer_cases _ p with h | h
      · exact h
      · exact h.trans hoffer
    · simp [State.completesWith, ContentionUnit.removeEntries, hsend]
    · simp [State.completesWith, RequestUnit.complete, hctx]
  | @expelled s st f n h begun =>
    refine started_or_begun (.expelled st f n h begun) (begun.elim (fun h => h) fun hoffer ho => ?_) hs
    exact hoffer (hs.2 ho).2.1
  | @withdrawn s c h hc =>
    refine started_or_begun (.withdrawn c h hc) (fun ho => ?_) hs
    simp [RequestUnit.find, (hs.2 ho).2.2.2] at h
  | restarted hh h hc => exact started_or_begun (.restarted hh h hc) h hs
  | leaving h => exact started_or_begun (.leaving h) (by simp [h]) hs
  | accepted r k h => exact started_or_begun (.accepted r k h) (State.submitStatus_begun h) hs
  | listening h => exact started_or_begun (.listening h) (by rintro ho; simp [ho, StationState.ended] at h) hs
  | joining h => exact started_or_begun (.joining h) (by simp [h]) hs
  | admitted h => exact started_or_begun (.admitted h) (by simp [h]) hs
  | lostStep q h => exact started_or_begun (.lostStep q h) (StationState.begun_of_applies h) hs
  | muted h hn => exact started_or_begun (.muted h hn) (by rintro ho; simp [ho, StationState.rejects, StationState.applies, StationState.requesting] at h) hs
  | recovered h => exact started_or_begun (.recovered h) (by simp [h]) hs
  | departed n h => exact started_or_begun (.departed n h) (by simp [h]) hs

/-- A change that takes a begun station to one that has begun, the lock untouched. -/
theorem State.offlineLaw_of_begun {s t : State} (hs : s.offlineLaw) (ho : s.ctl.state ≠ .offline)
    (h : t.ctl.state ≠ .offline ∧ t.port.locked = s.port.locked) : t.offlineLaw := by
  rw [State.offlineLaw_iff_of_begun h.1, h.2]
  exact (State.offlineLaw_iff_of_begun ho).1 hs

theorem offlineLaw_kept : Kept State.offlineLaw where
  pending s l h := h
  reset s straps := ⟨⟨nofun, fun h => absurd rfl h⟩, fun _ => ⟨rfl, rfl, rfl, rfl⟩⟩
  chain := Local.offlineLaw
  heard x b ha hx hs := State.offlineLaw_of_begun hs (StationState.begun_of_applies ha) (State.applyFrame_begun ha ..)
  clash b ha hs := by
    refine State.offlineLaw_of_begun hs (StationState.begun_of_applies ha) ⟨by simp, ?_⟩
    rw [State.expel_port_locked, (State.applyFrame_begun ha ..).2]
  own := fun {s} src b ha hs => by
    have core := State.applyFrame_begun (s := s.endSource src) (by simpa using ha) true src.tag s.ctl.number b
    exact State.offlineLaw_of_begun hs (StationState.begun_of_applies ha) ⟨core.1, core.2.trans (by simp)⟩
  founds hj hs := State.offlineLaw_of_begun hs (by simp [hj]) ⟨nofun, rfl⟩
  installs sh check hsh ho good present hs := State.offlineLaw_of_begun hs ho ⟨nofun, rfl⟩

/-- Settles O55: each of the three laws is kept by every kind of change a step is made of. -/
theorem stepKeepsTheCountLineAndOfflineLaws : Obligations.StepKeepsTheCountLineAndOfflineLaws := by
  unfold Obligations.StepKeepsTheCountLineAndOfflineLaws
  exact ⟨fun s t hs ht => countLaw_kept.step hs ht, fun s t hs ht => lineLaw_kept.step hs ht, fun s t hs ht => offlineLaw_kept.step hs ht⟩

end Sys2Proof.Machine
end

section
/-! The pool's count (R12). -/

namespace Sys2Proof.Machine

variable {host : Bool}

/-! ### Waiters counted over the table -/

/-- The waiter records of an entry. -/
def Replica.waitersAt (r : Replica) (i : Nat) : Nat := (r.entry i).waiters.length

/-- All waiter records of the table. -/
def Replica.waiterCount (r : Replica) : Nat := ∑ i ∈ Finset.range 64, r.waitersAt i

theorem Replica.table_toList (r : Replica) : r.table.toList = (List.range 64).map r.entry := by
  refine List.ext_getElem (by simp) fun i h _ => ?_
  have hi : i < 64 := by simpa using h
  simp [Replica.entry_of_lt r hi]

theorem Replica.poolLaw_iff (r : Replica) : r.poolLaw ↔ r.poolInUse = r.waiterCount ∧ r.poolInUse ≤ Config.poolSize := by
  unfold Replica.poolLaw
  rw [r.table_toList, List.map_map]
  rfl

/-- The pool law reads the table and the count. -/
theorem Replica.poolLaw.congr {r q : Replica} (h : r.poolLaw) (ht : q.table = r.table) (hp : q.poolInUse = r.poolInUse) : q.poolLaw := by
  unfold Replica.poolLaw at *
  rwa [ht, hp]

theorem Replica.waitersAt_of_ge (r : Replica) {i : Nat} (h : 64 ≤ i) : r.waitersAt i = 0 := by
  simp [Replica.waitersAt, r.entry_of_ge h, Entry.empty]

/-- One entry's records are among all. -/
theorem Replica.waitersAt_le (r : Replica) (i : Nat) : r.waitersAt i ≤ r.waiterCount := by
  by_cases h : i < 64
  · exact Finset.single_le_sum (f := r.waitersAt) (fun _ _ => Nat.zero_le _) (Finset.mem_range.2 h)
  · rw [r.waitersAt_of_ge (by omega)]; exact Nat.zero_le _

/-- A write of one entry moves the count by that entry's records. -/
theorem Replica.waiterCount_setEntry (r : Replica) {i : Nat} (hi : i < 64) (e : Entry) :
    (r.setEntry i e).waiterCount + r.waitersAt i = r.waiterCount + e.waiters.length := by
  have hmem : i ∈ Finset.range 64 := Finset.mem_range.2 hi
  have same : ∀ j ∈ (Finset.range 64).erase i, (r.setEntry i e).waitersAt j = r.waitersAt j := by
    intro j hj
    have hne : i ≠ j := fun h => (Finset.mem_erase.1 hj).1 h.symm
    simp [Replica.waitersAt, Replica.entry_setEntry, hne]
  have at_i : (r.setEntry i e).waitersAt i = e.waiters.length := by simp [Replica.waitersAt, Replica.entry_setEntry, hi]
  have after : (r.setEntry i e).waiterCount = e.waiters.length + ∑ j ∈ (Finset.range 64).erase i, r.waitersAt j := by
    rw [← Finset.sum_congr rfl same, ← at_i]
    exact (Finset.add_sum_erase _ _ hmem).symm
  have before : r.waiterCount = r.waitersAt i + ∑ j ∈ (Finset.range 64).erase i, r.waitersAt j := (Finset.add_sum_erase _ _ hmem).symm
  omega

/-! ### What an apply does to the wait lists -/

theorem Entry.promote_waiters_length_le (e : Entry) : e.promote.1.waiters.length ≤ e.waiters.length := by
  have h := congrArg List.length (promoteFrom_split e.waiters e)
  rw [List.length_append] at h
  unfold Entry.promote
  omega

theorem Entry.dropWaiter_waiters_length_le (e : Entry) (x : Station) : (e.dropWaiter x).waiters.length ≤ e.waiters.length :=
  List.length_filter_le ..

theorem Entry.remove_waiters_length_le (e : Entry) (x : Station) : (e.remove x).1.waiters.length ≤ e.waiters.length :=
  ((Entry.promote_waiters_length_le _).trans (Entry.dropWaiter_waiters_length_le ..)).trans (by simp)

/-- Only a CLAIM that is QUEUED makes a list longer, by one, and only with a record left in the pool (R16). -/
theorem Entry.applyClaim_waiters_length (e : Entry) (p : Nat) (x : Station) (m : Mode) (w : Bool) (tag : Byte) :
    (e.applyClaim p x m w tag).entry.waiters.length ≤ e.waiters.length ∨
    p < Config.poolSize ∧ (e.applyClaim p x m w tag).entry.waiters.length = e.waiters.length + 1 := by
  unfold Entry.applyClaim
  repeat' split
  case isFalse.isFalse.isFalse.isFalse.isFalse hp => exact .inr ⟨by omega, by simp⟩
  all_goals exact .inl (by simp [Entry.unchanged])

theorem Entry.applyRelease_waiters_length_le (e : Entry) (x : Station) : (e.applyRelease x).entry.waiters.length ≤ e.waiters.length := by
  unfold Entry.applyRelease
  split
  · exact (Entry.promote_waiters_length_le _).trans (by simp)
  · exact Nat.le_refl _

theorem Entry.applyWithdraw_waiters_length_le (e : Entry) (x : Station) : (e.applyWithdraw x).entry.waiters.length ≤ e.waiters.length := by
  unfold Entry.applyWithdraw
  split
  · exact (Entry.promote_waiters_length_le _).trans (Entry.dropWaiter_waiters_length_le ..)
  · exact Nat.le_refl _

theorem Entry.applyDowngrade_waiters_length_le (e : Entry) (x : Station) : (e.applyDowngrade x).entry.waiters.length ≤ e.waiters.length := by
  unfold Entry.applyDowngrade
  repeat' split
  case isFalse.isFalse => exact Entry.promote_waiters_length_le _
  all_goals exact Nat.le_refl _

/-- No table frame changes an empty entry: it permits nobody, and nobody is named in it. -/
theorem Entry.empty_unchanged (p : Nat) (x : Station) (m : Mode) (w : Bool) (tag : Byte) :
    (Entry.empty.applyClaim p x m w tag).entry = Entry.empty ∧ (Entry.empty.applyRelease x).entry = Entry.empty ∧
    (Entry.empty.applyWithdraw x).entry = Entry.empty ∧ (Entry.empty.applyDowngrade x).entry = Entry.empty := by
  simp [Entry.applyClaim, Entry.applyRelease, Entry.applyWithdraw, Entry.applyDowngrade, Entry.empty, Entry.waits, Entry.unchanged,
    StationSet.has_zero]

/-! ### The pool law of the replica -/

/-- A table frame keeps the pool law when it leaves entries outside the table empty and lengthens a list only into a pool with room. -/
theorem Replica.applyEntry_poolLaw {r : Replica} (h : r.poolLaw) (i : Nat) (f : Entry → EntryResult)
    (outside : (f Entry.empty).entry = Entry.empty)
    (room : (f (r.entry i)).entry.waiters.length ≤ r.waitersAt i ∨
      r.poolInUse < Config.poolSize ∧ (f (r.entry i)).entry.waiters.length = r.waitersAt i + 1) : (r.applyEntry i f).replica.poolLaw := by
  show (r.setEntry i (f (r.entry i)).entry).poolLaw
  by_cases hi : i < 64
  · obtain ⟨hp, hb⟩ := r.poolLaw_iff.1 h
    have count := r.waiterCount_setEntry hi (f (r.entry i)).entry
    have among := r.waitersAt_le i
    have pool : (r.setEntry i (f (r.entry i)).entry).poolInUse = r.poolInUse + (f (r.entry i)).entry.waiters.length - r.waitersAt i := rfl
    refine (Replica.poolLaw_iff _).2 ⟨?_, ?_⟩ <;> rw [pool] <;> omega
  · have he : r.entry i = Entry.empty := r.entry_of_ge (by omega)
    rw [he, outside, ← he, Replica.setEntry_self]
    exact h

/-- Removal of a station gives the pool back the records that left the lists. -/
theorem Replica.removeStation_poolLaw {r : Replica} (h : r.poolLaw) {ts : Nat} (hts : ts ≤ 64) (x : Station) :
    (r.removeStation ts x).replica.poolLaw := by
  obtain ⟨hp, hb⟩ := r.poolLaw_iff.1 h
  have shrinks : ∀ i, (r.removeStation ts x).replica.waitersAt i ≤ r.waitersAt i := by
    intro i
    unfold Replica.waitersAt
    rw [Replica.entry_removeStation]
    split
    · exact Entry.remove_waiters_length_le ..
    · exact Nat.le_refl _
  have back : (r.removeStation ts x).replica.poolInUse =
      r.poolInUse - ∑ i ∈ Finset.range ts, (r.waitersAt i - ((r.entry i).remove x).1.waiters.length) := rfl
  have gone : ∑ i ∈ Finset.range ts, (r.waitersAt i - ((r.entry i).remove x).1.waiters.length) =
      ∑ i ∈ Finset.range 64, (r.waitersAt i - (r.removeStation ts x).replica.waitersAt i) := by
    refine (Finset.sum_congr rfl fun i hi => ?_).trans (Finset.sum_subset (by simpa using hts) fun i _ hi => ?_)
    · simp [Replica.waitersAt, Replica.entry_removeStation_of_lt r x (Finset.mem_range.1 hi)]
    · have : ¬ i < ts := by simpa using hi
      simp [Replica.waitersAt, Replica.entry_removeStation, this]
  have split : r.waiterCount = (r.removeStation ts x).replica.waiterCount +
      ∑ i ∈ Finset.range 64, (r.waitersAt i - (r.removeStation ts x).replica.waitersAt i) := by
    unfold Replica.waiterCount
    rw [← Finset.sum_add_distrib]
    exact Finset.sum_congr rfl fun i _ => (Nat.add_sub_of_le (shrinks i)).symm
  refine (Replica.poolLaw_iff _).2 ⟨?_, ?_⟩ <;> rw [back, gone] <;> omega

/-- The effect of every state frame keeps the pool law. -/
theorem Replica.effect_poolLaw {r : Replica} (h : r.poolLaw) {ts : Nat} (hts : ts ≤ 64) (x : Station) (b : StateBody) :
    (r.effect ts x b).replica.poolLaw := by
  cases b with
  | claim res m w t => exact Replica.applyEntry_poolLaw h _ _ (Entry.empty_unchanged r.poolInUse x m w t).1 (Entry.applyClaim_waiters_length ..)
  | release => exact Replica.applyEntry_poolLaw h _ _ (Entry.empty_unchanged 0 x .excl true 0).2.1 (.inl (Entry.applyRelease_waiters_length_le ..))
  | withdraw => exact Replica.applyEntry_poolLaw h _ _ (Entry.empty_unchanged 0 x .excl true 0).2.2.1 (.inl (Entry.applyWithdraw_waiters_length_le ..))
  | downgrade => exact Replica.applyEntry_poolLaw h _ _ (Entry.empty_unchanged 0 x .excl true 0).2.2.2 (.inl (Entry.applyDowngrade_waiters_length_le ..))
  | join =>
    simp only [Replica.effect]
    split
    · exact Replica.removeStation_poolLaw h hts x
    · exact h.congr rfl rfl
  | leave => exact Replica.removeStation_poolLaw (h.congr rfl rfl) hts x
  | heartbeat => exact h
  | reap target =>
    simp only [Replica.effect]
    split
    · split
      · exact Replica.removeStation_poolLaw (h.congr rfl rfl) hts _
      · exact h
    · exact h

theorem Replica.apply_poolLaw {r : Replica} (h : r.poolLaw) {ts : Nat} (hts : ts ≤ 64) (x : Station) (b : StateBody) :
    (r.apply ts x b).replica.poolLaw := by
  suffices (if r.admits x b then r.effect ts x b else r.noEffect).replica.poolLaw from this.congr rfl rfl
  split
  · exact Replica.effect_poolLaw h hts x b
  · exact h

theorem tableSizeOfCode_le (c : Byte) : tableSizeOfCode c ≤ 64 := by
  unfold tableSizeOfCode
  split <;> omega

theorem PortUnit.tableSize_le (p : PortUnit) : p.tableSize ≤ 64 := by
  unfold PortUnit.tableSize
  split
  · exact tableSizeOfCode_le _
  · omega

theorem State.tableSize_le (s : State) : s.tableSize ≤ 64 := s.port.tableSize_le

/-- A replica without a waiter, none in the pool. -/
theorem Replica.poolLaw_of_no_waiter {r : Replica} (hp : r.poolInUse = 0) (h : ∀ i, (r.entry i).waiters = []) : r.poolLaw := by
  refine r.poolLaw_iff.2 ⟨?_, by rw [hp]; exact Nat.zero_le _⟩
  rw [hp]
  exact (Finset.sum_eq_zero fun i _ => by simp [Replica.waitersAt, h i]).symm

theorem Replica.empty_poolLaw : Replica.empty.poolLaw :=
  Replica.poolLaw_of_no_waiter rfl fun i => by rw [Replica.empty_isEmptyForm.1 i]

theorem Replica.poolLaw_of_eq_empty {r : Replica} (h : r = Replica.empty) : r.poolLaw := h ▸ Replica.empty_poolLaw

theorem PortUnit.founded_entry (p : PortUnit) (n : Station) (i : Nat) (h : i < 64) : (p.founded n).entry i = p.entryWith i .free := by
  rw [Replica.entry_of_lt _ h]
  simp [PortUnit.founded]

theorem PortUnit.entryWith_waiters (p : PortUnit) (i : Nat) (c : ClaimState) : (p.entryWith i c).waiters = if i < p.tableSize then c.waiters else [] := by
  unfold PortUnit.entryWith
  split <;> rfl

theorem PortUnit.founded_poolLaw (p : PortUnit) (n : Station) : (p.founded n).poolLaw := by
  refine Replica.poolLaw_of_no_waiter rfl fun i => ?_
  by_cases h : i < 64
  · rw [p.founded_entry n i h, PortUnit.entryWith_waiters]
    split <;> rfl
  · rw [Replica.entry_of_ge _ (by omega)]; rfl

theorem PortUnit.installed_entry (p : PortUnit) (sh : Shadow) (i : Nat) (h : i < 64) :
    (p.installed sh).entry i = p.entryWith i ((sh.claims[i]?).getD .free) := by
  rw [Replica.entry_of_lt _ h]
  simp [PortUnit.installed]

/-- A sum over a list, by place. -/
theorem List.sum_map_eq_sum_range {α : Type} (l : List α) (f : α → Nat) (d : α) :
    (l.map f).sum = ∑ i ∈ Finset.range l.length, f ((l[i]?).getD d) := by
  induction l with
  | nil => rfl
  | cons a l ih => rw [List.length_cons, Finset.sum_range_succ']; simp [ih, Nat.add_comm]

theorem PortUnit.installed_poolLaw {p : PortUnit} {sh : Shadow} {check : Word} (good : sh.good p.tableSize check = true)
    (bound : sh.poolInUse ≤ Config.poolSize) : (p.installed sh).poolLaw := by
  simp only [Shadow.good, Bool.and_eq_true, beq_iff_eq] at good
  obtain ⟨⟨hlen, hpool⟩, -⟩ := good
  refine (Replica.poolLaw_iff _).2 ⟨?_, bound⟩
  calc (p.installed sh).poolInUse
    _ = (sh.claims.map fun c => c.waiters.length).sum := hpool
    _ = ∑ i ∈ Finset.range p.tableSize, ((sh.claims[i]?).getD .free).waiters.length := by
      rw [List.sum_map_eq_sum_range _ _ ClaimState.free, hlen]
    _ = ∑ i ∈ Finset.range p.tableSize, (p.installed sh).waitersAt i := by
      refine Finset.sum_congr rfl fun i hi => ?_
      have hi : i < p.tableSize := Finset.mem_range.1 hi
      rw [Replica.waitersAt, p.installed_entry sh i (hi.trans_le p.tableSize_le), PortUnit.entryWith_waiters, if_pos hi]
    _ = (p.installed sh).waiterCount := by
      refine Finset.sum_subset (by simpa using p.tableSize_le) fun i h64 hi => ?_
      have hi : ¬ i < p.tableSize := by simpa using hi
      rw [Replica.waitersAt, p.installed_entry sh i (Finset.mem_range.1 h64), PortUnit.entryWith_waiters, if_neg hi]
      rfl

/-! ### The pool law of the station -/

/-- A local change leaves the pool law's part of the replica. -/
theorem Local.replica_poolLaw {s t : State} (h : Local host s t) (hs : s.replica.poolLaw) : t.replica.poolLaw := by
  rcases h.replica with h | h | h
  · exact Replica.poolLaw_of_eq_empty h
  · rwa [h]
  · rw [h]; exact hs.congr rfl rfl

/-- The shadow's count is within the pool. -/
def State.ShadowBounded (s : State) : Prop := ∀ sh, s.sync.shadow = some sh → sh.poolInUse ≤ Config.poolSize

theorem State.ShadowBounded.of_none {s : State} (h : s.sync.shadow = none) : s.ShadowBounded := by
  intro sh hsh
  simp [h] at hsh

theorem State.ShadowBounded.congr {s t : State} (hs : s.ShadowBounded) (h : t.sync.shadow = s.sync.shadow) : t.ShadowBounded := by
  unfold State.ShadowBounded
  rwa [h]

theorem State.Quiet.shadowBounded {s t : State} (h : s.Quiet t) (hs : s.ShadowBounded) : t.ShadowBounded := by
  intro sh hsh
  rcases h.shadow sh hsh with hb | ⟨sh', hs', hp⟩
  · exact hb
  · exact hp ▸ hs sh' hs'

theorem Local.shadowBounded {s t : State} (h : Local host s t) (hs : s.ShadowBounded) : t.ShadowBounded := by
  induction h with
  | quiet h => exact h.shadowBounded hs
  | trans _ _ ih ih' => exact ih' (ih hs)
  | lostStep => exact hs.congr (by simp)
  | restarted | muted | expelled | departed => exact .of_none rfl
  | _ => exact hs

theorem State.applyFrame_poolLaw {s : State} (hs : s.poolLaw) (own : Bool) (tag : Option Byte) (x : Station) (b : StateBody) :
    (s.applyFrame own tag x b).poolLaw := by
  obtain ⟨hpool, hshadow⟩ := hs
  have core : (s.applied own tag x b).poolLaw :=
    ⟨by rw [State.applied_replica]; exact Replica.apply_poolLaw hpool s.tableSize_le x b, State.ShadowBounded.congr hshadow (by simp)⟩
  rw [State.applyFrame_eq_applied]
  split
  · rcases (s.applied own tag x b).afterApply_cases own s.replica x (s.replica.apply s.tableSize x b).replica.sequence b with
      ⟨st, f, -, h⟩ | ⟨-, -, h⟩ | ⟨h, -⟩
    · rw [h]; exact ⟨Replica.empty_poolLaw, State.ShadowBounded.of_none rfl⟩
    · rw [h]; exact ⟨Replica.empty_poolLaw, State.ShadowBounded.of_none rfl⟩
    · exact ⟨by rw [h.replica]; exact core.1, h.shadowBounded core.2⟩
  · exact core

theorem poolLaw_kept : Kept State.poolLaw where
  pending _ _ h := h
  reset _ _ := ⟨Replica.empty_poolLaw, State.ShadowBounded.of_none rfl⟩
  chain h hs := ⟨h.replica_poolLaw hs.1, h.shadowBounded hs.2⟩
  heard _ _ _ _ hs := State.applyFrame_poolLaw hs ..
  clash _ _ _ := ⟨Replica.empty_poolLaw, State.ShadowBounded.of_none rfl⟩
  own src _ _ hs := State.applyFrame_poolLaw ⟨by rw [(State.endSource_quiet _ src).replica]; exact hs.1, (State.endSource_quiet _ src).shadowBounded hs.2⟩ ..
  founds _ hs := ⟨PortUnit.founded_poolLaw .., hs.2⟩
  installs sh _ hsh _ good _ hs := ⟨PortUnit.installed_poolLaw good (hs.2 sh hsh), State.ShadowBounded.of_none rfl⟩

/-- Settles O52: the pool counts the waiters through every change of the table, and a shadow within the pool becomes a replica within it. -/
theorem stepKeepsThePoolLaw : Obligations.StepKeepsThePoolLaw := by
  unfold Obligations.StepKeepsThePoolLaw
  exact fun s t hs ht => poolLaw_kept.step hs ht

end Sys2Proof.Machine
end

section
/-! The laws of the claim table (R5 to R8, R10, R12) through every apply, and so through every step but an installation. -/

namespace Sys2Proof.Machine

variable {host : Bool} {e : Entry} {x y : Station}

/-! ### A lawful entry is a consistent one whose head waiter is not grantable -/

/-- STATE and HOLDERS agree (R6). -/
def Entry.StateAgrees (e : Entry) : Prop :=
  match e.state with
  | .free => e.holders = 0#16
  | .exclusive => ∃ x : Station, e.holders = StationSet.addStation 0#16 x
  | .shared => e.holders ≠ 0#16 ∧ e.sharedOk = true

/-- A waiter may stand in the list of the entry: it holds nothing there and the attributes permit it (R7, R8). -/
def Entry.Admits (e : Entry) (w : Waiter) : Prop :=
  e.holders.has w.station = false ∧ e.permit.has w.station = true ∧ (w.mode = .shared → e.sharedOk = true)

/-- The laws of an entry that promotion does not establish, but keeps. -/
structure Entry.Consistent (e : Entry) : Prop where
  agrees : e.StateAgrees
  nodup : (e.waiters.map Waiter.station).Nodup
  waiters : ∀ w ∈ e.waiters, e.Admits w
  permitted : ∀ x : Station, e.holders.has x = true → e.permit.has x = true

/-- The entry names a station: as a holder or as a waiter. -/
def Entry.Names (e : Entry) (x : Station) : Prop := e.holders.has x = true ∨ e.waits x = true

theorem Entry.StateAgrees.not_free (h : e.StateAgrees) (hs : e.state ≠ .free) : e.holders ≠ 0#16 := by
  unfold Entry.StateAgrees at h
  cases hst : e.state with
  | free => exact absurd hst hs
  | exclusive => rw [hst] at h; obtain ⟨x, hx⟩ := h; exact hx ▸ StationSet.addStation_ne_zero 0#16 x
  | shared => rw [hst] at h; exact h.1

theorem Entry.StateAgrees.of_free (h : e.StateAgrees) (hs : e.state = .free) : e.holders = 0#16 := by
  unfold Entry.StateAgrees at h
  rwa [hs] at h

/-- A FREE entry with a blocked head has no waiter. -/
theorem Entry.HeadBlocked.waiters_of_free (hb : e.HeadBlocked) (h : e.StateAgrees) (hs : e.state = .free) : e.waiters = [] := by
  cases hw : e.waiters with
  | nil => rfl
  | cons w ws =>
    obtain ⟨hexcl, hshared⟩ := hb w (by simp [hw])
    cases hm : w.mode with
    | excl => exact absurd (h.of_free hs) (hexcl hm)
    | shared => simp [hs] at hshared; exact absurd hm hshared

theorem Entry.headBlocked_iff (e : Entry) : e.HeadBlocked ↔
    match e.waiters.head? with
    | none => True
    | some w => match w.mode with
      | .excl => e.holders ≠ 0#16
      | .shared => e.state = .exclusive := by
  unfold Entry.HeadBlocked
  cases e.waiters.head? with
  | none => simp
  | some w => cases hm : w.mode <;> simp [hm]

theorem Entry.lawful_iff (e : Entry) : e.lawful ↔ e.Consistent ∧ e.HeadBlocked := by
  rw [Entry.headBlocked_iff]
  constructor
  · rintro ⟨hstate, hnodup, hwaiters, hpermit, hhead⟩
    refine ⟨⟨?_, hnodup, hwaiters, hpermit⟩, hhead⟩
    unfold Entry.StateAgrees
    cases hs : e.state <;> rw [hs] at hstate
    · exact hstate.1
    · exact hstate
    · exact hstate
  · rintro ⟨⟨hagrees, hnodup, hwaiters, hpermit⟩, hhead⟩
    refine ⟨?_, hnodup, hwaiters, hpermit, hhead⟩
    have free : e.state = .free → e.waiters = [] := (e.headBlocked_iff.2 hhead).waiters_of_free hagrees
    unfold Entry.StateAgrees at hagrees
    cases hs : e.state <;> rw [hs] at hagrees
    · exact ⟨hagrees, free hs⟩
    · exact hagrees
    · exact hagrees

/-! ### Grants and promotion -/

theorem Entry.waits_iff : e.waits x = true ↔ x ∈ e.waiters.map Waiter.station := by
  simp [Entry.waits]

/-- A grant to a station that waits no longer, in an entry that was FREE or goes on SHARED. -/
theorem Entry.Consistent.grant {m : Mode} {ws : List Waiter} (h : e.Consistent) (sub : ws.Sublist e.waiters) (permit : e.permit.has x = true)
    (shared : m = .shared → e.sharedOk = true) (excl : m = .excl → e.holders = 0#16) (out : x ∉ ws.map Waiter.station) :
    ({ e.grant x m with waiters := ws } : Entry).Consistent where
  agrees := by
    cases m with
    | excl => exact ⟨x, by show e.holders.addStation x = _; rw [excl rfl]⟩
    | shared => exact ⟨StationSet.addStation_ne_zero e.holders x, shared rfl⟩
  nodup := h.nodup.sublist (sub.map _)
  waiters w hw := by
    obtain ⟨hh, hp, hs⟩ := h.waiters w (sub.subset hw)
    refine ⟨?_, hp, hs⟩
    have hne : w.station ≠ x := fun he => out (he ▸ List.mem_map_of_mem hw)
    show (e.holders.addStation x).has w.station = false
    simp [StationSet.has_addStation, hh, hne]
  permitted y hy := by
    have hy : (e.holders.addStation x).has y = true := hy
    simp only [StationSet.has_addStation, Bool.or_eq_true, decide_eq_true_eq] at hy
    rcases hy with hy | rfl
    · exact h.permitted y hy
    · exact permit

/-- Promotion keeps the entry consistent. -/
theorem promoteFrom_consistent (ws : List Waiter) (e : Entry) (h : ({ e with waiters := ws } : Entry).Consistent) :
    (promoteFrom ws e).1.Consistent := by
  induction ws generalizing e with
  | nil => exact h
  | cons w ws ih =>
    obtain ⟨hh, hp, hs⟩ := h.waiters w List.mem_cons_self
    have out : w.station ∉ ws.map Waiter.station := (List.nodup_cons.1 h.nodup).1
    have granted : ∀ m, m = w.mode → (m = .excl → e.holders = 0#16) → ({ e.grant w.station m with waiters := ws } : Entry).Consistent :=
      fun m hm excl => h.grant (List.sublist_cons_self w ws) hp (fun h => hs (hm ▸ h)) excl out
    unfold promoteFrom
    cases hm : w.mode with
    | excl =>
      dsimp only
      split
      · exact granted .excl hm.symm fun _ => ‹_›
      · exact h
    | shared =>
      dsimp only
      split
      · exact h
      · exact ih _ (granted .shared hm.symm nofun)

theorem Entry.Consistent.promote_lawful (h : e.Consistent) : e.promote.1.lawful :=
  (Entry.lawful_iff _).2 ⟨promoteFrom_consistent e.waiters e h, promoteFrom_headBlocked e.waiters e⟩

/-- Promotion names nobody new. -/
theorem Entry.promote_names (h : e.promote.1.Names x) : e.Names x := by
  have split : e.promote.2.map Grant.waiter ++ e.promote.1.waiters = e.waiters := promoteFrom_split e.waiters e
  rcases h with h | h
  · rcases promoteFrom_holders e.waiters e x h with h | ⟨w, hw, hx⟩
    · exact .inl h
    · exact .inr (Entry.waits_iff.2 (hx ▸ List.mem_map_of_mem hw))
  · refine .inr (Entry.waits_iff.2 ?_)
    rw [← split, List.map_append]
    exact List.mem_append_right _ (Entry.waits_iff.1 h)

/-! ### A hold or a waiter record taken out -/

theorem Entry.dropHolder_holders_has : (e.dropHolder x).holders.has y = (e.holders.has y && decide (y ≠ x)) := by
  unfold Entry.dropHolder
  split
  case isTrue => exact StationSet.has_dropStation ..
  case isFalse hx =>
    by_cases he : y = x
    · subst he; simpa using hx
    · simp [he]

theorem Entry.Consistent.dropHolder (h : e.Consistent) (x : Station) : (e.dropHolder x).Consistent where
  agrees := by
    unfold Entry.dropHolder
    split
    case isFalse => exact h.agrees
    case isTrue hx =>
      by_cases hz : e.holders.dropStation x = 0#16
      · simp [Entry.StateAgrees, hz]
      · have hagrees := h.agrees
        unfold Entry.StateAgrees at hagrees ⊢
        simp only [if_neg hz]
        cases hs : e.state <;> rw [hs] at hagrees
        · simp [hagrees, StationSet.has_zero] at hx
        · obtain ⟨y, hy⟩ := hagrees
          refine absurd (StationSet.ext_has fun z => ?_) hz
          simp only [hy, StationSet.has_addStation, StationSet.has_zero, Bool.false_or, decide_eq_true_eq] at hx
          simp [hy, hx, StationSet.has_dropStation, StationSet.has_addStation, StationSet.has_zero]
        · exact ⟨hz, hagrees.2⟩
  nodup := by simpa using h.nodup
  waiters w hw := by
    obtain ⟨hh, hp, hs⟩ := h.waiters w (by simpa using hw)
    exact ⟨by rw [Entry.dropHolder_holders_has, hh]; rfl, by simpa using hp, by simpa using hs⟩
  permitted y hy := by
    rw [Entry.dropHolder_holders_has, Bool.and_eq_true] at hy
    simpa using h.permitted y hy.1

theorem Entry.Consistent.dropWaiter (h : e.Consistent) (x : Station) : (e.dropWaiter x).Consistent where
  agrees := h.agrees
  nodup := h.nodup.sublist (List.filter_sublist.map _)
  waiters w hw := h.waiters w (List.mem_filter.1 hw).1
  permitted := h.permitted

theorem Entry.dropHolder_names (h : (e.dropHolder x).Names y) : e.Names y := by
  rcases h with h | h
  · rw [Entry.dropHolder_holders_has, Bool.and_eq_true] at h
    exact .inl h.1
  · exact .inr (by simpa [Entry.waits] using h)

theorem Entry.dropWaiter_waits : (e.dropWaiter x).waits y = (e.waits y && decide (y ≠ x)) := by
  rw [Bool.eq_iff_iff]
  simp only [Entry.waits, Entry.dropWaiter, List.any_eq_true, List.mem_filter, Bool.and_eq_true, beq_iff_eq, decide_eq_true_eq, bne_iff_ne]
  constructor
  · rintro ⟨w, ⟨hw, hx⟩, rfl⟩
    exact ⟨⟨w, hw, rfl⟩, hx⟩
  · rintro ⟨⟨w, hw, rfl⟩, hx⟩
    exact ⟨w, ⟨hw, hx⟩, rfl⟩

theorem Entry.dropWaiter_names (h : (e.dropWaiter x).Names y) : e.Names y := by
  rcases h with h | h
  · exact .inl h
  · rw [Entry.dropWaiter_waits, Bool.and_eq_true] at h
    exact .inr h.1

/-! ### Table frames on an entry -/

theorem Entry.applyRelease_lawful (h : e.lawful) (x : Station) : (e.applyRelease x).entry.lawful := by
  unfold Entry.applyRelease
  split
  · exact ((e.lawful_iff.1 h).1.dropHolder x).promote_lawful
  · exact h

theorem Entry.applyRelease_names (h : (e.applyRelease x).entry.Names y) : e.Names y := by
  unfold Entry.applyRelease at h
  split at h
  · exact Entry.dropHolder_names (Entry.promote_names h)
  · exact h

theorem Entry.applyWithdraw_lawful (h : e.lawful) (x : Station) : (e.applyWithdraw x).entry.lawful := by
  unfold Entry.applyWithdraw
  split
  · exact ((e.lawful_iff.1 h).1.dropWaiter x).promote_lawful
  · exact h

theorem Entry.applyWithdraw_names (h : (e.applyWithdraw x).entry.Names y) : e.Names y := by
  unfold Entry.applyWithdraw at h
  split at h
  · exact Entry.dropWaiter_names (Entry.promote_names h)
  · exact h

/-- An EXCLUSIVE hold turned SHARED where SHARED is allowed. -/
theorem Entry.Consistent.toShared (h : e.Consistent) (hs : e.state ≠ .free) (ho : e.sharedOk = true) :
    ({ e with state := .shared } : Entry).Consistent :=
  ⟨⟨h.agrees.not_free hs, ho⟩, h.nodup, h.waiters, h.permitted⟩

theorem Entry.applyDowngrade_lawful (h : e.lawful) (x : Station) : (e.applyDowngrade x).entry.lawful := by
  unfold Entry.applyDowngrade
  split
  · exact h
  case isFalse hx =>
    split
    · exact h
    case isFalse ho =>
      simp only [Bool.or_eq_true, bne_iff_ne, Bool.not_eq_true', not_or, not_not] at hx
      exact ((e.lawful_iff.1 h).1.toShared (by rw [hx.1]; nofun) (by simpa using ho)).promote_lawful

theorem Entry.applyDowngrade_names (h : (e.applyDowngrade x).entry.Names y) : e.Names y := by
  unfold Entry.applyDowngrade at h
  split at h
  · exact h
  · split at h
    · exact h
    · exact Entry.promote_names (e := { e with state := .shared }) h

/-- What CLAIM does to its entry: nothing, a grant at once, or a record at the tail. -/
theorem Entry.applyClaim_cases (e : Entry) (p : Nat) (x : Station) (m : Mode) (w : Bool) (tag : Byte) :
    (e.applyClaim p x m w tag).entry = e ∨
    (e.permit.has x = true ∧ (m = .shared → e.sharedOk = true) ∧ ¬ e.Names x) ∧
      ((e.grantableNow m = true ∧ (e.applyClaim p x m w tag).entry = e.grant x m) ∨
       (e.grantableNow m = false ∧ (e.applyClaim p x m w tag).entry = { e with waiters := e.waiters ++ [{ station := x, mode := m, tag := tag }] })) := by
  unfold Entry.applyClaim
  split
  · exact .inl rfl
  case isFalse hr =>
    split
    · exact .inl rfl
    case isFalse hn =>
      have free : e.permit.has x = true ∧ (m = .shared → e.sharedOk = true) ∧ ¬ e.Names x := by
        simp only [Bool.or_eq_true, Bool.not_eq_true', Bool.and_eq_true, beq_iff_eq, not_or, not_and, Bool.not_eq_false] at hr
        exact ⟨hr.1, hr.2, by simpa [Entry.Names] using hn⟩
      split
      case isTrue hg => exact .inr ⟨free, .inl ⟨hg, rfl⟩⟩
      case isFalse hg =>
        split
        · exact .inl rfl
        · split
          · exact .inl rfl
          · exact .inr ⟨free, .inr ⟨by simpa using hg, rfl⟩⟩

theorem Entry.grantableNow_iff (m : Mode) :
    e.grantableNow m = true ↔ e.waiters = [] ∧ (e.state = .free ∨ e.state = .shared ∧ m = .shared) := by
  simp [Entry.grantableNow]

theorem Entry.HeadBlocked.of_no_waiter (h : e.waiters = []) : e.HeadBlocked := by
  intro w hw
  simp [h] at hw

/-- A grant at once leaves a lawful entry. -/
theorem Entry.lawful.grant {m : Mode} (h : e.lawful) (permit : e.permit.has x = true) (shared : m = .shared → e.sharedOk = true)
    (hg : e.grantableNow m = true) : (e.grant x m).lawful := by
  obtain ⟨hempty, hstate⟩ := (Entry.grantableNow_iff m).1 hg
  obtain ⟨hc, -⟩ := e.lawful_iff.1 h
  have excl : m = .excl → e.holders = 0#16 := by
    rintro rfl
    rcases hstate with hs | ⟨-, hm⟩
    · exact hc.agrees.of_free hs
    · cases hm
  have same : e.grant x m = { e.grant x m with waiters := [] } := by rw [← hempty]; rfl
  refine (Entry.lawful_iff _).2 ⟨?_, .of_no_waiter hempty⟩
  rw [same]
  exact hc.grant (List.nil_sublist _) permit shared excl (by simp)

/-- A claim that is not grantable at once queues lawfully. -/
theorem Entry.lawful.queue {m : Mode} {tag : Byte} (h : e.lawful) (permit : e.permit.has x = true) (shared : m = .shared → e.sharedOk = true)
    (hn : ¬ e.Names x) (hg : e.grantableNow m = false) :
    ({ e with waiters := e.waiters ++ [{ station := x, mode := m, tag := tag }] } : Entry).lawful := by
  obtain ⟨hc, hb⟩ := e.lawful_iff.1 h
  have out : e.holders.has x = false ∧ x ∉ e.waiters.map Waiter.station := by
    simpa [Entry.Names, Entry.waits_iff] using hn
  refine (Entry.lawful_iff _).2 ⟨⟨hc.agrees, ?_, fun w hw => ?_, hc.permitted⟩, ?_⟩
  · rw [List.map_append, List.map_singleton]
    exact List.nodup_append.2 ⟨hc.nodup, List.nodup_singleton _, fun a ha b hb => by
      rintro rfl
      obtain rfl : a = x := List.mem_singleton.1 hb
      exact out.2 ha⟩
  · rcases List.mem_append.1 hw with hw | hw
    · exact hc.waiters w hw
    · rw [List.mem_singleton.1 hw]
      exact ⟨out.1, permit, shared⟩
  · intro w hw
    cases hws : e.waiters with
    | cons v vs => exact hb w (by simpa [hws] using hw)
    | nil =>
      obtain rfl : (⟨x, m, tag⟩ : Waiter) = w := by simpa [hws] using hw
      have hg : ¬ (e.waiters = [] ∧ (e.state = .free ∨ e.state = .shared ∧ m = .shared)) := by
        rw [← Entry.grantableNow_iff, hg]; nofun
      have hstate : e.state ≠ .free ∧ ¬ (e.state = .shared ∧ m = .shared) := by simpa [hws] using hg
      refine ⟨fun _ => hc.agrees.not_free hstate.1, fun hm => ?_⟩
      cases hs : e.state with
      | free => exact absurd hs hstate.1
      | exclusive => rfl
      | shared => exact absurd ⟨hs, hm⟩ hstate.2

theorem Entry.applyClaim_lawful (h : e.lawful) (p : Nat) (x : Station) (m : Mode) (w : Bool) (tag : Byte) :
    (e.applyClaim p x m w tag).entry.lawful := by
  rcases e.applyClaim_cases p x m w tag with he | ⟨⟨hp, hs, hn⟩, ⟨hg, he⟩ | ⟨hg, he⟩⟩ <;> rw [he]
  · exact h
  · exact h.grant hp hs hg
  · exact h.queue hp hs hn hg

theorem Entry.applyClaim_names {p : Nat} {m : Mode} {w : Bool} {tag : Byte} (h : (e.applyClaim p x m w tag).entry.Names y) :
    e.Names y ∨ y = x := by
  rcases e.applyClaim_cases p x m w tag with he | ⟨-, ⟨-, he⟩ | ⟨-, he⟩⟩ <;> rw [he] at h
  · exact .inl h
  · rcases h with h | h
    · have h : (e.holders.addStation x).has y = true := h
      simp only [StationSet.has_addStation, Bool.or_eq_true, decide_eq_true_eq] at h
      exact h.imp_left .inl
    · exact .inl (.inr h)
  · rcases h with h | h
    · exact .inl (.inl h)
    · have h : y ∈ (e.waiters ++ [(⟨x, m, tag⟩ : Waiter)]).map Waiter.station := Entry.waits_iff.1 h
      rw [List.map_append, List.mem_append] at h
      rcases h with h | h
      · exact .inl (.inr (Entry.waits_iff.2 h))
      · exact .inr (by simpa using h)

/-! ### Removal of a station -/

theorem Entry.remove_lawful (h : e.lawful) (x : Station) : (e.remove x).1.lawful :=
  (((e.lawful_iff.1 h).1.dropHolder x).dropWaiter x).promote_lawful

/-- Removal leaves the station named nowhere, and names nobody new (R23). -/
theorem Entry.remove_names (h : (e.remove x).1.Names y) : e.Names y ∧ y ≠ x := by
  have before : ((e.dropHolder x).dropWaiter x).Names y := Entry.promote_names h
  refine ⟨Entry.dropHolder_names (Entry.dropWaiter_names before), ?_⟩
  rcases before with h | h
  · rw [Entry.dropWaiter_holders, Entry.dropHolder_holders_has] at h
    simpa using (Bool.and_eq_true_iff.1 h).2
  · rw [Entry.dropWaiter_waits] at h
    simpa using (Bool.and_eq_true_iff.1 h).2

/-! ### The replica's table -/

theorem Entry.empty_not_names (x : Station) : ¬ Entry.empty.Names x := by
  simp [Entry.Names, Entry.empty, Entry.waits, StationSet.has_zero]

/-- A FREE entry without waiters is lawful whatever its attributes. -/
theorem Entry.lawful_of_free (hs : e.state = .free) (hh : e.holders = 0#16) (hw : e.waiters = []) : e.lawful := by
  refine e.lawful_iff.2 ⟨⟨by simp [Entry.StateAgrees, hs, hh], by simp [hw], by simp [hw], fun x hx => ?_⟩, .of_no_waiter hw⟩
  simp [hh, StationSet.has_zero] at hx

theorem Entry.empty_lawful : Entry.empty.lawful := Entry.lawful_of_free rfl rfl rfl

theorem Replica.namesMembers_iff (r : Replica) : r.namesMembers ↔ ∀ i y, (r.entry i).Names y → r.present y = true := Iff.rfl

/-- The laws of the table read the table, the pool's count and the roster. -/
theorem Replica.lawful.congr {r q : Replica} {ts : Nat} (h : r.lawful ts) (ht : q.table = r.table) (hp : q.poolInUse = r.poolInUse)
    (hr : q.roster = r.roster) : q.lawful ts := by
  have he : ∀ i, q.entry i = r.entry i := by unfold Replica.entry; simp [ht]
  obtain ⟨hlaw, hout, hnames, hpool⟩ := h
  refine ⟨fun i => he i ▸ hlaw i, fun i hi => he i ▸ hout i hi, fun i y hy => ?_, hpool.congr ht hp⟩
  have : q.present y = r.present y := by unfold Replica.present Replica.membership; rw [hr]
  rw [this]
  exact hnames i y (he i ▸ hy)

theorem Replica.present_of_roster {r q : Replica} (h : q.roster = r.roster) (y : Station) : q.present y = r.present y := by
  unfold Replica.present Replica.membership
  rw [h]

/-- A table frame keeps the laws when it keeps its entry lawful, leaves an empty entry empty, and names members alone. -/
theorem Replica.applyEntry_lawful {r : Replica} {ts : Nat} (h : r.lawful ts) (i : Nat) (f : Entry → EntryResult)
    (pool : (r.applyEntry i f).replica.poolLaw) (keeps : (f (r.entry i)).entry.lawful) (outside : (f Entry.empty).entry = Entry.empty)
    (names : ∀ y, (f (r.entry i)).entry.Names y → (r.entry i).Names y ∨ r.present y = true) : (r.applyEntry i f).replica.lawful ts := by
  obtain ⟨hlaw, hout, hnames, -⟩ := h
  have entry : ∀ j, (r.applyEntry i f).replica.entry j = if i = j ∧ j < 64 then (f (r.entry i)).entry else r.entry j :=
    fun j => Replica.entry_setEntry ..
  refine ⟨fun j => ?_, fun j hj => ?_, fun j y hy => ?_, pool⟩
  · rw [entry j]
    split
    · exact keeps
    · exact hlaw j
  · rw [entry j]
    split
    case isTrue he => rw [he.1, hout j hj, outside]
    case isFalse => exact hout j hj
  · have hy : ((r.applyEntry i f).replica.entry j).Names y := hy
    show r.present y = true
    rw [entry j] at hy
    split at hy
    · exact (names y hy).elim (hnames i y) id
    · exact hnames j y hy

/-- Removal keeps the laws where all but the removed station that are named are members. -/
theorem Replica.removeStation_lawful {r : Replica} {ts : Nat} (hts : ts ≤ 64) (x : Station) (hlaw : ∀ i, (r.entry i).lawful)
    (hout : ∀ i, ts ≤ i → r.entry i = Entry.empty) (hnames : ∀ i y, (r.entry i).Names y → y ≠ x → r.present y = true) (hpool : r.poolLaw) :
    (r.removeStation ts x).replica.lawful ts := by
  refine ⟨fun i => ?_, fun i hi => ?_, fun i y hy => ?_, Replica.removeStation_poolLaw hpool hts x⟩
  · rw [Replica.entry_removeStation]
    split
    · exact Entry.remove_lawful (hlaw i) x
    · exact hlaw i
  · rw [Replica.entry_removeStation, if_neg (by omega), hout i hi]
  · have hy : ((r.removeStation ts x).replica.entry i).Names y := hy
    rw [Replica.present_of_roster (r.removeStation_roster ts x)]
    by_cases hi : i < ts
    · rw [Replica.entry_removeStation_of_lt r x hi] at hy
      obtain ⟨hy, hne⟩ := Entry.remove_names hy
      exact hnames i y hy hne
    · rw [Replica.entry_removeStation, if_neg (by omega), hout i (by omega)] at hy
      exact absurd hy (Entry.empty_not_names y)

/-- A member that leaves the roster leaves the table with it. -/
theorem Replica.setMembership_removeStation_lawful {r : Replica} {ts : Nat} (h : r.lawful ts) (hts : ts ≤ 64) (x : Station) (m : Membership) :
    ((r.setMembership x m).removeStation ts x).replica.lawful ts := by
  obtain ⟨hlaw, hout, hnames, hpool⟩ := h
  refine Replica.removeStation_lawful hts x hlaw hout (fun i y hy hne => ?_) (hpool.congr rfl rfl)
  have hp := hnames i y hy
  simpa [Replica.present, Replica.membership_setMembership, hne] using hp

theorem Replica.effect_lawful {r : Replica} {ts : Nat} (h : r.lawful ts) (hts : ts ≤ 64) {x : Station} {b : StateBody}
    (ha : r.admits x b = true) : (r.effect ts x b).replica.lawful ts := by
  have pool := Replica.effect_poolLaw h.2.2.2 hts x b
  have hlaw := h.1
  have empty := fun m w tag => Entry.empty_unchanged r.poolInUse x m w tag
  cases b with
  | claim res m w t =>
    have member : r.present x = true := by simpa [Replica.admits] using ha
    refine Replica.applyEntry_lawful h _ _ pool (Entry.applyClaim_lawful (hlaw _) ..) (empty m w t).1 fun y hy => ?_
    exact (Entry.applyClaim_names hy).imp_right (by rintro rfl; exact member)
  | release res =>
    exact Replica.applyEntry_lawful h _ _ pool (Entry.applyRelease_lawful (hlaw _) x) (empty .excl true 0).2.1 fun y hy => .inl (Entry.applyRelease_names hy)
  | withdraw res =>
    exact Replica.applyEntry_lawful h _ _ pool (Entry.applyWithdraw_lawful (hlaw _) x) (empty .excl true 0).2.2.1 fun y hy => .inl (Entry.applyWithdraw_names hy)
  | downgrade res =>
    exact Replica.applyEntry_lawful h _ _ pool (Entry.applyDowngrade_lawful (hlaw _) x) (empty .excl true 0).2.2.2 fun y hy => .inl (Entry.applyDowngrade_names hy)
  | join =>
    obtain ⟨-, hout, hnames, hpool⟩ := h
    simp only [Replica.effect]
    split
    · exact Replica.removeStation_lawful hts x hlaw hout (fun i y hy _ => hnames i y hy) hpool
    · refine ⟨hlaw, hout, fun i y hy => ?_, hpool.congr rfl rfl⟩
      have hp := hnames i y hy
      by_cases he : y = x
      · simp [Replica.present, Replica.membership_setMembership, he]
      · simpa [Replica.present, Replica.membership_setMembership, he] using hp
  | leave => exact Replica.setMembership_removeStation_lawful h hts x .absent
  | heartbeat => exact h
  | reap target =>
    simp only [Replica.effect]
    split
    · split
      · exact Replica.setMembership_removeStation_lawful h hts _ .lapsed
      · exact h
    · exact h

theorem Replica.apply_lawful {r : Replica} {ts : Nat} (h : r.lawful ts) (hts : ts ≤ 64) (x : Station) (b : StateBody) :
    (r.apply ts x b).replica.lawful ts := by
  suffices (if r.admits x b then r.effect ts x b else r.noEffect).replica.lawful ts from this.congr rfl rfl rfl
  split
  · exact Replica.effect_lawful h hts ‹_›
  · exact h

/-- A table of FREE entries without waiters is lawful. -/
theorem Replica.lawful_of_free {r : Replica} {ts : Nat} (hp : r.poolInUse = 0)
    (hfree : ∀ i, (r.entry i).state = .free ∧ (r.entry i).holders = 0#16 ∧ (r.entry i).waiters = [])
    (hout : ∀ i, ts ≤ i → r.entry i = Entry.empty) : r.lawful ts := by
  refine ⟨fun i => ?_, hout, fun i y hy => ?_, Replica.poolLaw_of_no_waiter hp fun i => (hfree i).2.2⟩
  · obtain ⟨hs, hh, hw⟩ := hfree i
    exact Entry.lawful_of_free hs hh hw
  · obtain ⟨-, hh, hw⟩ := hfree i
    simp [Entry.waits, hh, hw, StationSet.has_zero] at hy

theorem Replica.empty_entry (i : Nat) : Replica.empty.entry i = Entry.empty := Replica.empty_isEmptyForm.1 i

theorem Replica.empty_lawful (ts : Nat) : Replica.empty.lawful ts :=
  Replica.lawful_of_free rfl (fun i => by rw [Replica.empty_entry]; exact ⟨rfl, rfl, rfl⟩) fun i _ => Replica.empty_entry i

theorem Replica.lawful_of_eq_empty {r : Replica} (h : r = Replica.empty) (ts : Nat) : r.lawful ts := h ▸ Replica.empty_lawful ts

theorem PortUnit.founded_lawful (p : PortUnit) (n : Station) : (p.founded n).lawful p.tableSize := by
  have entry : ∀ i, (p.founded n).entry i = p.entryWith i .free := by
    intro i
    by_cases h : i < 64
    · exact p.founded_entry n i h
    · have : ¬ i < p.tableSize := by have := p.tableSize_le; omega
      rw [Replica.entry_of_ge _ (by omega), PortUnit.entryWith, if_neg this]
  refine Replica.lawful_of_free rfl (fun i => ?_) fun i hi => ?_
  · rw [entry, PortUnit.entryWith]
    split <;> exact ⟨rfl, rfl, rfl⟩
  · rw [entry, PortUnit.entryWith, if_neg (by omega)]

/-! ### The station's table -/

/-- Past START no local change touches the block or the lock. -/
theorem Local.block {s t : State} (h : Local host s t) (hs : s.ctl.state ≠ .offline) :
    t.port.config = s.port.config ∧ t.port.locked = s.port.locked := by
  refine ⟨?_, (h.begun hs).2⟩
  induction h with
  | quiet h => rw [h.port]
  | trans h _ ih ih' => exact (ih' (h.begun hs).1).trans (ih hs)
  | port p _ _ _ hc => exact hc.resolve_right hs
  | started _ h => exact absurd h hs
  | lostStep => simp
  | muted => unfold State.enterMuted; dsimp only; split <;> rfl
  | expelled => simp
  | _ => rfl

theorem State.tableSize_congr {s t : State} (h : t.port.config = s.port.config ∧ t.port.locked = s.port.locked) : t.tableSize = s.tableSize := by
  unfold State.tableSize PortUnit.tableSize PortUnit.configByte
  rw [h.1, h.2]

/-- The laws of the station's table, with the law that OFFLINE's is empty, so that writing the block there keeps them. -/
def State.TableLaw (s : State) : Prop := s.memberLaw ∧ s.replica.lawful s.tableSize

theorem Local.tableLaw {s t : State} (h : Local host s t) (hs : s.TableLaw) : t.TableLaw := by
  obtain ⟨hm, hl⟩ := hs
  refine ⟨h.memberLaw hm, ?_⟩
  by_cases ho : s.ctl.state = .offline
  · exact Replica.lawful_of_eq_empty (h.stays_empty (hm.2.2 (by rw [ho]; rfl))) _
  · rw [State.tableSize_congr (h.block ho)]
    rcases h.replica with hr | hr | hr
    · exact Replica.lawful_of_eq_empty hr _
    · rwa [hr]
    · rw [hr]; exact hl.congr rfl rfl rfl

theorem State.applyFrame_lawful {s : State} (hs : s.replica.lawful s.tableSize) (own : Bool) (tag : Option Byte) (x : Station) (b : StateBody) :
    (s.applyFrame own tag x b).replica.lawful (s.applyFrame own tag x b).tableSize := by
  have settings := s.applyFrame_settings own tag x b
  rw [State.tableSize_congr ⟨settings.config, settings.locked⟩]
  have core : (s.applied own tag x b).replica.lawful s.tableSize := by
    rw [State.applied_replica]
    exact Replica.apply_lawful hs s.tableSize_le x b
  rw [State.applyFrame_eq_applied]
  split
  · rcases (s.applied own tag x b).afterApply_cases own s.replica x (s.replica.apply s.tableSize x b).replica.sequence b with
      ⟨st, f, -, h⟩ | ⟨-, -, h⟩ | ⟨h, -⟩
    · rw [h]; exact Replica.empty_lawful _
    · rw [h]; exact Replica.empty_lawful _
    · rw [h.replica]; exact core
  · exact core

theorem tableLaw_kept : KeptBeforeInstall State.TableLaw where
  pending _ _ h := h
  reset s straps := ⟨memberLaw_kept.reset s straps, Replica.empty_lawful _⟩
  chain := Local.tableLaw
  heard x b ha hx hs := ⟨memberLaw_kept.heard x b ha hx hs.1, State.applyFrame_lawful hs.2 ..⟩
  clash b ha hs := ⟨memberLaw_kept.clash b ha hs.1, Replica.empty_lawful _⟩
  own := fun {s} src b ha hs => by
    have same := (s.endSource_quiet src).replica
    refine ⟨memberLaw_kept.own src b ha hs.1, State.applyFrame_lawful ?_ ..⟩
    rw [same, State.tableSize_congr (s := s) ⟨by simp, by simp⟩]
    exact hs.2
  founds hj hs := ⟨memberLaw_kept.founds hj hs.1, PortUnit.founded_lawful ..⟩

/-- Settles O51: the table's laws through every change but an installation, and through the apply of every state frame. -/
theorem stepKeepsTheLawsOfTheTable : Obligations.StepKeepsTheLawsOfTheTable := by
  unfold Obligations.StepKeepsTheLawsOfTheTable
  exact ⟨fun s t hm hl noTail ht => (tableLaw_kept.step ⟨hm, hl⟩ noTail ht).2, fun r ts x b hts h => Replica.apply_lawful h hts x b⟩

end Sys2Proof.Machine
end

section
/-! The request unit and the send list (R68, R138, R140, R158). -/

namespace Sys2Proof.Machine

variable {host : Bool}

/-! ### The request unit -/

/-- At most eight contexts, no tag twice, and one unread record for each DONE context (R138, R140, R158). -/
structure RequestUnit.Lawful (r : RequestUnit) : Prop where
  few : r.contexts.length ≤ Config.contextCount
  tags : (r.contexts.map Context.tag).Nodup
  unread : r.doneTags.Perm (r.queue.map CompletionRecord.tag)

theorem State.requestLaw_iff (s : State) : s.requestLaw ↔ s.req.Lawful ∧ ∀ r, s.port.capture = some r → s.req.queue.head? = some r :=
  ⟨fun ⟨hf, ht, hu, hc⟩ => ⟨⟨hf, ht, hu⟩, hc⟩, fun ⟨⟨hf, ht, hu⟩, hc⟩ => ⟨hf, ht, hu, hc⟩⟩

theorem RequestUnit.lawful_reset : RequestUnit.reset.Lawful := ⟨Nat.zero_le _, List.nodup_nil, .refl _⟩

/-- A change of contexts that leaves tags and DONE. -/
theorem RequestUnit.Lawful.map {r : RequestUnit} (h : r.Lawful) {f : Context → Context} (tag : ∀ c, (f c).tag = c.tag)
    (done : ∀ c ∈ r.contexts, ((f c).state = .done ↔ c.state = .done)) : ({ r with contexts := r.contexts.map f } : RequestUnit).Lawful := by
  have tags : (r.contexts.map f).map Context.tag = r.contexts.map Context.tag := by
    rw [List.map_map]; exact List.map_congr_left fun c _ => tag c
  refine ⟨by simpa using h.few, by rw [tags]; exact h.tags, ?_⟩
  have same : ({ r with contexts := r.contexts.map f } : RequestUnit).doneTags = r.doneTags := by
    unfold RequestUnit.doneTags
    rw [List.filter_map, List.map_map]
    refine (List.map_congr_left fun c _ => tag c).trans (congrArg _ (List.filter_congr fun c hc => ?_))
    simp [done c hc]
  rw [same]
  exact h.unread

/-- The DONE tags after completions are the ones before and those completed, in whatever order. -/
theorem doneTags_complete_perm (l : List Context) (f : Context → Option Completion) :
    (((l.map fun c => if (c.decided f).isSome then c.finish else c).filter fun c => c.state == .done).map Context.tag).Perm
      (((l.filter fun c => c.state == .done).map Context.tag) ++ ((l.filterMap fun c => (c.decided f).map c.record).map CompletionRecord.tag)) := by
  induction l with
  | nil => exact .refl _
  | cons c l ih =>
    cases hd : c.decided f with
    | none =>
      simp only [List.map_cons, hd, Option.isSome_none, Bool.false_eq_true, if_false, List.filter_cons, List.filterMap_cons, Option.map_none]
      split
      · exact ih.cons _
      · exact ih
    | some k =>
      have hopen : (c.state == .done) = false := by simpa using (Context.decided_eq_some.1 hd).1
      simp only [List.map_cons, hd, Option.isSome_some, if_true, List.filter_cons, List.filterMap_cons, Option.map_some, hopen, Bool.false_eq_true,
        if_false, Context.finish_state, beq_self_eq_true]
      exact (ih.cons _).trans List.perm_middle.symm

theorem RequestUnit.Lawful.complete {r : RequestUnit} (h : r.Lawful) (f : Context → Option Completion) : (r.complete f).Lawful := by
  refine ⟨by simpa using h.few, by simpa using h.tags, ?_⟩
  rw [RequestUnit.complete_queue, List.map_append]
  exact (doneTags_complete_perm r.contexts f).trans (h.unread.append_right _)

/-- A new context with a tag not in use. -/
theorem RequestUnit.Lawful.accept {r : RequestUnit} (h : r.Lawful) {c : Context} (room : r.full = false) (unused : r.find c.tag = none)
    (hopen : c.state ≠ .done) : ({ r with contexts := r.contexts ++ [c] } : RequestUnit).Lawful := by
  refine ⟨?_, ?_, ?_⟩
  · have : r.contexts.length < Config.contextCount := by simpa [RequestUnit.full] using room
    simpa using this
  · rw [List.map_append]
    refine List.nodup_append.2 ⟨h.tags, List.nodup_singleton _, fun a ha b hb => ?_⟩
    obtain rfl : b = c.tag := List.mem_singleton.1 hb
    rintro rfl
    obtain ⟨d, hd, ht⟩ := List.mem_map.1 ha
    have := List.find?_eq_none.1 unused d hd
    simp [ht] at this
  · have same : ({ r with contexts := r.contexts ++ [c] } : RequestUnit).doneTags = r.doneTags := by
      simp [RequestUnit.doneTags, List.filter_append, hopen]
    rw [same]
    exact h.unread

/-- The head record and its context leave together (R157). -/
theorem RequestUnit.Lawful.take {r : RequestUnit} (h : r.Lawful) {rec : CompletionRecord} (hq : r.queue.head? = some rec) : (r.take rec.tag).Lawful := by
  obtain ⟨hf, ht, hu⟩ := h
  refine ⟨(List.length_filter_le ..).trans hf, ht.sublist (List.filter_sublist.map _), ?_⟩
  obtain ⟨rest, hrest⟩ : ∃ rest, r.queue = rec :: rest := by
    cases hr : r.queue with
    | nil => simp [hr] at hq
    | cons a rest => exact ⟨rest, by simpa [hr] using hq⟩
  have nodup : r.doneTags.Nodup := ht.sublist (List.filter_sublist.map _)
  have left : (r.take rec.tag).doneTags = r.doneTags.erase rec.tag := by
    rw [nodup.erase_eq_filter]
    unfold RequestUnit.doneTags RequestUnit.take
    rw [List.filter_filter, List.filter_map, List.filter_filter]
    refine congrArg _ (List.filter_congr fun c _ => ?_)
    cases hd : (c.state == .done) <;> simp [bne]
  have after : ((r.take rec.tag).queue.map CompletionRecord.tag) = (r.queue.map CompletionRecord.tag).erase rec.tag := by
    simp [RequestUnit.take, hrest]
  rw [left, after]
  exact hu.erase _

/-! ### The send list -/

/-- The entry is the frame of the context (R68, Table 8-4). -/
structure Context.Sends (c : Context) (e : SendEntry) : Prop where
  tag : c.tag = e.tag
  resource : c.resource = e.resource
  notWaiting : c.state ≠ .waiting
  notDone : c.state ≠ .done
  withdraw : e.kind = .withdraw ↔ c.state = .withdrawing

/-- The send list names no context twice, and each entry is the frame of a context. -/
structure RequestUnit.Covers (r : RequestUnit) (l : List SendEntry) : Prop where
  tags : (l.map SendEntry.tag).Nodup
  sent : ∀ e ∈ l, ∃ c ∈ r.contexts, c.Sends e

theorem State.sendListLaw_iff (s : State) : s.sendListLaw ↔ s.req.Covers s.cont.sendList :=
  ⟨fun ⟨ht, hs⟩ => ⟨ht, fun e he => let ⟨c, hc, h1, h2, h3, h4, h5⟩ := hs e he; ⟨c, hc, h1, h2, h3, h4, h5⟩⟩,
    fun ⟨ht, hs⟩ => ⟨ht, fun e he => let ⟨c, hc, h1, h2, h3, h4, h5⟩ := hs e he; ⟨c, hc, h1, h2, h3, h4, h5⟩⟩⟩

theorem RequestUnit.Covers.nil (r : RequestUnit) : r.Covers [] := ⟨List.nodup_nil, nofun⟩

/-- Only the kind, the tag and the resource of an entry count. -/
theorem Context.Sends.of_key {c : Context} {e e' : SendEntry} (h : c.Sends e) (key : e'.key = e.key) : c.Sends e' := by
  obtain ⟨hk, ht, hr⟩ : e'.kind = e.kind ∧ e'.tag = e.tag ∧ e'.resource = e.resource := by simpa [SendEntry.key] using key
  exact ⟨h.tag.trans ht.symm, h.resource.trans hr.symm, h.notWaiting, h.notDone, hk ▸ h.withdraw⟩

theorem sendTags_of_keys (l : List SendEntry) : l.map SendEntry.tag = (l.map SendEntry.key).map fun k => k.2.1 := by
  rw [List.map_map]; rfl

/-- Entries that leave the list, with the rest's counts changed, leave the law. -/
theorem RequestUnit.Covers.of_keys {r : RequestUnit} {l l' : List SendEntry} (h : r.Covers l)
    (key : (l'.map SendEntry.key).Sublist (l.map SendEntry.key)) : r.Covers l' := by
  refine ⟨?_, fun e' he' => ?_⟩
  · rw [sendTags_of_keys]
    exact (sendTags_of_keys l ▸ h.tags).sublist (key.map _)
  · obtain ⟨e, he, hk⟩ := List.mem_map.1 (key.subset (List.mem_map_of_mem he'))
    obtain ⟨c, hc, hs⟩ := h.sent e he
    exact ⟨c, hc, hs.of_key hk.symm⟩

theorem RequestUnit.Covers.sublist {r : RequestUnit} {l l' : List SendEntry} (h : r.Covers l) (sub : l'.Sublist l) : r.Covers l' :=
  h.of_keys (sub.map _)

/-- A change of contexts keeps the law when each context that has an entry keeps its part of it. -/
theorem RequestUnit.Covers.map {r : RequestUnit} {l : List SendEntry} (h : r.Covers l) {q : RequestUnit} {f : Context → Context}
    (hq : q.contexts = r.contexts.map f) (keep : ∀ c ∈ r.contexts, ∀ e ∈ l, c.Sends e → (f c).Sends e) : q.Covers l :=
  ⟨h.tags, fun e he => let ⟨c, hc, hs⟩ := h.sent e he; ⟨f c, hq ▸ List.mem_map_of_mem hc, keep c hc e he hs⟩⟩

theorem Context.Report.sends {f : Context → Context} (hf : Context.Report f) {c : Context} {e : SendEntry} (h : c.Sends e) : (f c).Sends e :=
  ⟨(hf.tag c).trans h.tag, (hf.resource c).trans h.resource, fun hw => h.notWaiting ((hf.waiting c).1 hw), fun hd => h.notDone ((hf.done c).1 hd),
    h.withdraw.trans (hf.withdrawing c).symm⟩

/-- Completions keep the law when no context that completes has an entry left. -/
theorem RequestUnit.Covers.complete {r : RequestUnit} {l : List SendEntry} (h : r.Covers l) (f : Context → Option Completion)
    (gone : ∀ c ∈ r.contexts, (c.decided f).isSome = true → ∀ e ∈ l, ¬ c.Sends e) : (r.complete f).Covers l := by
  refine h.map rfl fun c hc e he hs => ?_
  rw [if_neg fun hd => gone c hc hd e he hs]
  exact hs

/-- The change of one context by its tag keeps the law when the context has no entry. -/
theorem RequestUnit.Covers.update {r : RequestUnit} {l : List SendEntry} (h : r.Covers l) {tag : Byte} (f : Context → Context)
    (gone : tag ∉ l.map SendEntry.tag) : (r.update tag f).Covers l := by
  refine h.map rfl fun c _ e he hs => ?_
  have : (c.tag == tag) = false := beq_eq_false_iff_ne.2 fun ht => gone (ht ▸ hs.tag ▸ List.mem_map_of_mem he)
  rw [this]
  exact hs

/-- A new entry at the tail, for a context that has none. -/
theorem RequestUnit.Covers.add {r : RequestUnit} {l : List SendEntry} (h : r.Covers l) {e : SendEntry} {c : Context} (hc : c ∈ r.contexts)
    (hs : c.Sends e) (gone : e.tag ∉ l.map SendEntry.tag) : r.Covers (l ++ [e]) := by
  refine ⟨?_, fun e' he' => ?_⟩
  · rw [List.map_append]
    refine List.nodup_append.2 ⟨h.tags, List.nodup_singleton _, fun a ha b hb => ?_⟩
    rintro rfl
    exact gone (List.mem_singleton.1 hb ▸ ha)
  · rcases List.mem_append.1 he' with he' | he'
    · exact h.sent e' he'
    · exact ⟨c, hc, List.mem_singleton.1 he' ▸ hs⟩

/-- A context that has no entry by the law: it is WAITING or DONE. -/
theorem RequestUnit.Covers.not_mem_of_waiting {r : RequestUnit} {l : List SendEntry} (hl : r.Lawful) (h : r.Covers l) {c : Context}
    (hc : c ∈ r.contexts) (hw : c.state = .waiting ∨ c.state = .done) : c.tag ∉ l.map SendEntry.tag := by
  intro ht
  obtain ⟨e, he, hte⟩ := List.mem_map.1 ht
  obtain ⟨d, hd, hs⟩ := h.sent e he
  have same : some d = some c := by
    rw [← RequestUnit.find_of_mem hl.tags hd, ← RequestUnit.find_of_mem hl.tags hc, hs.tag, hte]
  obtain rfl := Option.some.inj same
  exact hw.elim hs.notWaiting hs.notDone

/-! ### A context that turns to WITHDRAWING -/

theorem Context.withdraw_sends (c : Context) : c.withdraw.Sends c.withdrawEntry := ⟨rfl, rfl, nofun, nofun, iff_of_true rfl rfl⟩

theorem RequestUnit.Lawful.update {r : RequestUnit} (h : r.Lawful) (tag : Byte) {f : Context → Context} (htag : ∀ c, (f c).tag = c.tag)
    (done : ∀ c ∈ r.contexts, c.tag = tag → ((f c).state = .done ↔ c.state = .done)) : (r.update tag f).Lawful := by
  refine h.map (fun c => ?_) fun c hc => ?_
  · split
    · exact htag c
    · rfl
  · split
    · exact done c hc (by simpa using ‹(c.tag == tag) = true›)
    · rfl

/-- The context found by a tag, alone with it. -/
theorem RequestUnit.Lawful.eq_of_tag {r : RequestUnit} (h : r.Lawful) {c d : Context} (hf : r.find c.tag = some c) (hd : d ∈ r.contexts)
    (ht : d.tag = c.tag) : d = c := by
  have := RequestUnit.find_of_mem h.tags hd
  rw [ht, hf] at this
  exact (Option.some.inj this).symm

/-- An open context turns to WITHDRAWING. -/
theorem RequestUnit.Lawful.withdraw {r : RequestUnit} (h : r.Lawful) {c : Context} (hf : r.find c.tag = some c) (ho : c.state ≠ .done) :
    (r.update c.tag Context.withdraw).Lawful := by
  refine h.update _ (fun _ => rfl) fun d hd ht => ?_
  rw [h.eq_of_tag hf hd ht]
  exact iff_of_false nofun ho

/-- An open context without an entry turns to WITHDRAWING with its WITHDRAW at the tail (R68). -/
theorem RequestUnit.Covers.withdraw {r : RequestUnit} {l : List SendEntry} (h : r.Covers l) {c : Context} (hf : r.find c.tag = some c)
    (gone : c.tag ∉ l.map SendEntry.tag) : (r.update c.tag Context.withdraw).Covers (l ++ [c.withdrawEntry]) := by
  refine (h.update _ gone).add (c := c.withdraw) ?_ c.withdraw_sends gone
  exact List.mem_map.2 ⟨c, (RequestUnit.mem_of_find hf).1, by simp⟩

/-! ### The two laws of the station, through what is not an apply -/

/-- Both laws together. -/
def State.RequestLaws (s : State) : Prop := s.requestLaw ∧ s.sendListLaw

/-- The request law where the request unit stays lawful, the queue grows at its tail, and a capture stays or is dropped. -/
theorem State.requestLaw.of_grown {s t : State} (h : s.requestLaw) (lawful : s.req.Lawful → t.req.Lawful)
    (grown : ∃ l, t.req.queue = s.req.queue ++ l) (capture : t.port.capture = none ∨ t.port.capture = s.port.capture) : t.requestLaw := by
  obtain ⟨hl, hc⟩ := s.requestLaw_iff.1 h
  refine t.requestLaw_iff.2 ⟨lawful hl, fun r hr => ?_⟩
  obtain ⟨l, hq⟩ := grown
  rcases capture with h | h <;> rw [h] at hr
  · cases hr
  · rw [hq, List.head?_append, hc r hr]; rfl

/-- The request law where the requests stay. -/
theorem State.requestLaw.of_same {s t : State} (h : s.requestLaw) (req : t.req = s.req)
    (capture : t.port.capture = none ∨ t.port.capture = s.port.capture) : t.requestLaw :=
  h.of_grown (fun hl => req ▸ hl) ⟨[], by rw [req, List.append_nil]⟩ capture

theorem State.requestLaw.complete {s t : State} (h : s.requestLaw) {f : Context → Option Completion} (req : t.req = s.req.complete f)
    (capture : t.port.capture = none ∨ t.port.capture = s.port.capture) : t.requestLaw :=
  h.of_grown (fun hl => req ▸ hl.complete f) ⟨_, by rw [req]; rfl⟩ capture

theorem State.Quiet.requestLaw {s t : State} (h : s.Quiet t) (hs : s.requestLaw) : t.requestLaw := by
  obtain ⟨f, hf, hreq⟩ := h.req
  refine hs.of_grown (fun hl => ?_) ⟨[], by rw [hreq, List.append_nil]⟩ (.inr (by rw [h.port]))
  rw [hreq]
  exact hl.map hf.tag fun c _ => hf.done c

/-- The statuses of SUBMIT: ACCEPTED means that the tag is not in use and a context is free (Table 8-2). -/
theorem State.accepted_room {s : State} {r : RequestRecord} (h : s.submitStatus r = .accepted) : s.req.full = false ∧ s.req.find r.tag = none := by
  unfold State.submitStatus at h
  repeat' split at h
  all_goals cases h
  exact ⟨by simpa using ‹¬ s.req.full = true›, by simpa using ‹¬ (s.req.find r.tag).isSome = true›⟩

/-- A local change keeps the law of contexts and completion queue. -/
theorem Local.requestLaw {s t : State} (h : Local host s t) (hs : s.requestLaw) : t.requestLaw := by
  induction h with
  | quiet h => exact h.requestLaw hs
  | trans _ _ ih ih' => exact ih' (ih hs)
  | port p _ hc =>
    obtain ⟨hl, hcap⟩ := (State.requestLaw_iff _).1 hs
    refine (State.requestLaw_iff _).2 ⟨hl, fun r hr => ?_⟩
    rcases hc with h | h | h
    · exact absurd (h.symm.trans hr) nofun
    · exact h.symm.trans hr
    · exact hcap r (h.symm.trans hr)
  | @restarted s _ _ hc =>
    exact s.restarted.requestLaw_iff.2 ⟨RequestUnit.lawful_reset, fun r hr => absurd (hc.symm.trans hr) nofun⟩
  | leaving => exact hs.complete (f := fun c => if c.state = .queuedLocal ∨ c.state = .contending then some (.plain .abandoned) else none) rfl (.inr rfl)
  | accepted r k h =>
    obtain ⟨room, unused⟩ := State.accepted_room h
    exact hs.of_grown (fun hl => hl.accept room unused nofun) ⟨[], (List.append_nil _).symm⟩ (.inr rfl)
  | removed r _ h =>
    obtain ⟨hl, hcap⟩ := (State.requestLaw_iff _).1 hs
    exact (State.requestLaw_iff _).2 ⟨hl.take (hcap r h), nofun⟩
  | lostStep => exact hs.of_same (by simp) (.inr (by simp))
  | muted =>
    refine hs.of_same ?_ (.inr ?_) <;> (unfold State.enterMuted; dsimp only; split <;> rfl)
  | expelled => exact hs.complete (State.expel_req ..) (.inr (by simp))
  | departed => exact hs.complete rfl (.inr rfl)
  | completed => exact hs.complete rfl (.inr rfl)
  | withdrawn c hf hc =>
    exact hs.of_grown (fun hl => hl.withdraw hf (by rw [hc]; nofun)) ⟨[], (List.append_nil _).symm⟩ (.inr rfl)
  | _ => exact hs.of_same rfl (.inr rfl)

theorem State.sendListLaw.of_same {s t : State} (h : s.sendListLaw) (req : t.req = s.req) (sendList : t.cont.sendList = s.cont.sendList) :
    t.sendListLaw := by
  rw [State.sendListLaw_iff] at *
  rwa [req, sendList]

theorem State.sendListLaw_of_nil {s : State} (h : s.cont.sendList = []) : s.sendListLaw := by
  rw [State.sendListLaw_iff, h]
  exact .nil _

theorem State.Quiet.sendListLaw {s t : State} (h : s.Quiet t) (hs : s.sendListLaw) : t.sendListLaw := by
  obtain ⟨f, hf, hreq⟩ := h.req
  rw [State.sendListLaw_iff] at *
  exact (hs.of_keys h.sendList).map (f := f) (by rw [hreq]) fun c _ e _ hse => hf.sends hse

/-- Completions with the entries of the contexts that complete removed. -/
theorem RequestUnit.Covers.complete_removing {r : RequestUnit} {l : List SendEntry} (h : r.Covers l) (f : Context → Option Completion)
    (p : Byte → Bool) (gone : ∀ c ∈ r.contexts, (c.decided f).isSome = true → ∀ e ∈ l, c.Sends e → p c.tag = true) :
    (r.complete f).Covers (l.filter fun e => !p e.tag) := by
  refine (h.sublist List.filter_sublist).complete f fun c hc hd e he hs => ?_
  obtain ⟨hel, hp⟩ := List.mem_filter.1 he
  have := gone c hc hd e hel hs
  rw [hs.tag] at this
  simp [this] at hp

/-- A local change keeps the send list's law. -/
theorem Local.sendListLaw {s t : State} (h : Local host s t) (hr : s.requestLaw) (hs : s.sendListLaw) : t.sendListLaw := by
  induction h with
  | quiet h => exact h.sendListLaw hs
  | trans h _ ih ih' => exact ih' (h.requestLaw hr) (ih hr hs)
  | restarted => exact State.sendListLaw_of_nil rfl
  | @leaving s =>
    rw [State.sendListLaw_iff] at *
    have carried : ∀ (c : ContentionUnit), c.markCarried.sendList.map SendEntry.key = c.sendList.map SendEntry.key := by
      intro c; rw [ContentionUnit.markCarried, List.map_map]; rfl
    refine (hs.complete_removing _ s.req.unsent fun c hc hd e he _ => ?_).of_keys ?_
    · obtain ⟨k, hk⟩ := Option.isSome_iff_exists.1 hd
      have hst := (Context.decided_eq_some.1 hk).2
      refine List.any_eq_true.2 ⟨c, hc, ?_⟩
      split at hst
      · simpa using ‹c.state = .queuedLocal ∨ c.state = .contending›
      · cases hst
    · exact (carried (s.leaveMember.cont.removeEntries s.req.unsent)).symm ▸ List.Sublist.refl _
  | @accepted s r k h =>
    obtain ⟨-, unused⟩ := State.accepted_room h
    rw [State.sendListLaw_iff] at *
    refine RequestUnit.Covers.add (c := contextOf r k) ⟨hs.tags, fun e he => ?_⟩ (by simp [State.accept])
      ⟨rfl, rfl, nofun, nofun, iff_of_false (by cases k <;> nofun) nofun⟩ fun ht => ?_
    · obtain ⟨c, hc, hse⟩ := hs.sent e he
      exact ⟨c, List.mem_append_left _ hc, hse⟩
    · obtain ⟨e, he, hte⟩ := List.mem_map.1 ht
      obtain ⟨c, hc, hse⟩ := hs.sent e he
      have := List.find?_eq_none.1 unused c hc
      have htag : c.tag = r.tag := hse.tag.trans hte
      simp [htag] at this
  | removed r =>
    rw [State.sendListLaw_iff] at *
    refine ⟨hs.tags, fun e he => ?_⟩
    obtain ⟨c, hc, hse⟩ := hs.sent e he
    exact ⟨c, List.mem_filter.2 ⟨hc, by simp [hse.notDone]⟩, hse⟩
  | lostStep => exact hs.of_same (by simp) (by simp)
  | muted => refine hs.of_same ?_ ?_ <;> (unfold State.enterMuted; dsimp only; split <;> rfl)
  | expelled st => exact State.sendListLaw_of_nil (State.enterEnd_sendList _ st)
  | departed => exact State.sendListLaw_of_nil (State.enterEnd_sendList _ .departed)
  | completed f p h =>
    rw [State.sendListLaw_iff] at *
    exact hs.complete_removing f p fun c hc hd _ _ _ => h c hc hd
  | withdrawn c hf hc =>
    rw [State.sendListLaw_iff] at *
    obtain ⟨hl, -⟩ := (State.requestLaw_iff _).1 hr
    exact hs.withdraw hf (hs.not_mem_of_waiting hl (RequestUnit.mem_of_find hf).1 (.inl hc))
  | _ => exact hs.of_same rfl rfl

/-! ### The two laws through an apply -/

/-- A grant notice is a completion; the WITHDRAW of a context that completes from WITHDRAWING goes with it (R143). -/
theorem State.notice_requestLaws {s : State} (h : s.RequestLaws) (n : Word) (g : TableGrant) : (s.notice n g).RequestLaws := by
  obtain ⟨hr, hs⟩ := h
  unfold State.notice
  split
  case isFalse => exact ⟨hr, hs⟩
  case isTrue =>
    dsimp only
    refine ⟨hr.complete rfl (.inr rfl), ?_⟩
    rw [State.sendListLaw_iff] at *
    have noticed : ∀ {c : Context}, (c.decided (Context.noticed g.grant.waiter.tag g.resource g.grant.generation n)).isSome = true →
        (Context.noticed g.grant.waiter.tag g.resource g.grant.generation n c).isSome = true ∧ c.tag = g.grant.waiter.tag ∧
          (c.state = .waiting ∨ c.state = .withdrawing) := by
      intro c hd
      obtain ⟨k, hk⟩ := Option.isSome_iff_exists.1 hd
      have hn := (Context.decided_eq_some.1 hk).2
      refine ⟨by rw [hn]; rfl, ?_⟩
      unfold Context.noticed at hn
      split at hn
      · obtain ⟨ht, -, hst⟩ := ‹c.tag = _ ∧ _ ∧ _›
        exact ⟨ht, hst⟩
      · cases hn
    dsimp only
    split
    case isTrue =>
      refine hs.complete_removing _ (fun t => t == g.grant.waiter.tag) fun c hc hd _ _ _ => ?_
      simp [(noticed hd).2.1]
    case isFalse hnone =>
      refine hs.complete _ fun c hc hd e he hse => ?_
      obtain ⟨hsome, -, hst⟩ := noticed hd
      rcases hst with hst | hst
      · exact hse.notWaiting hst
      · exact hnone (List.any_eq_true.2 ⟨c, hc, by rw [hsome, hst]; rfl⟩)

/-- The outcome of an apply at the context whose frame it was, its entry gone (R142, R147, R148). -/
theorem State.takeOutcome_requestLaw {s : State} (h : s.requestLaw) (tag : Byte) (code : OutcomeCode) (g n : Word) :
    (s.takeOutcome tag code g n).requestLaw := by
  unfold State.takeOutcome
  cases hf : s.req.find tag with
  | none => exact h
  | some c =>
    obtain rfl : c.tag = tag := (RequestUnit.mem_of_find hf).2
    have same : ∀ d ∈ s.req.contexts, d.tag = c.tag → s.req.Lawful → d = c := fun d hd ht hl => hl.eq_of_tag hf hd ht
    dsimp only
    split
    case h_1 hst =>
      split
      · exact h.complete rfl (.inr rfl)
      · split
        · exact h.of_grown (fun hl => hl.withdraw hf (by rw [hst]; nofun)) ⟨[], (List.append_nil _).symm⟩ (.inr rfl)
        · refine h.of_grown (fun hl => hl.update _ (fun _ => rfl) fun d hd ht => ?_) ⟨[], (List.append_nil _).symm⟩ (.inr rfl)
          rw [same d hd ht hl, hst]
          exact iff_of_false nofun nofun
    · exact h.complete rfl (.inr rfl)
    · exact h

theorem Context.decided_ite_isSome {f : Context → Option Completion} {c : Context} {p : Prop} [Decidable p]
    (h : (c.decided fun c => if p then f c else none).isSome = true) : p := by
  by_contra hn
  simp [Context.decided, hn] at h

/-- Completions by a tag that no entry carries. -/
theorem RequestUnit.Covers.complete_tag {r : RequestUnit} {l : List SendEntry} (h : r.Covers l) {tag : Byte} (gone : tag ∉ l.map SendEntry.tag)
    {f : Context → Option Completion} (only : ∀ c, f c ≠ none → c.tag = tag) : (r.complete f).Covers l := by
  refine h.complete f fun c _ hd e he hs => ?_
  obtain ⟨k, hk⟩ := Option.isSome_iff_exists.1 hd
  have ht := only c (by rw [(Context.decided_eq_some.1 hk).2]; nofun)
  exact gone (ht ▸ hs.tag ▸ List.mem_map_of_mem he)

theorem State.takeOutcome_sendListLaw {s : State} (h : s.sendListLaw) {tag : Byte} (gone : tag ∉ s.cont.sendList.map SendEntry.tag)
    (code : OutcomeCode) (g n : Word) : (s.takeOutcome tag code g n).sendListLaw := by
  unfold State.takeOutcome
  cases hf : s.req.find tag with
  | none => exact h
  | some c =>
    obtain rfl : c.tag = tag := (RequestUnit.mem_of_find hf).2
    rw [State.sendListLaw_iff] at h
    have only : ∀ (f : Context → Option Completion) (d : Context), (if d.tag == c.tag then f d else none) ≠ none → d.tag = c.tag := by
      intro f d hd
      by_contra hn
      simp [hn] at hd
    dsimp only
    split
    · split
      · exact (State.sendListLaw_iff _).2 (h.complete_tag gone (only _))
      · split
        · exact (State.sendListLaw_iff _).2 (h.withdraw hf gone)
        · exact (State.sendListLaw_iff _).2 (h.update _ gone)
    · exact (State.sendListLaw_iff _).2 (h.complete_tag gone (only _))
    · exact (State.sendListLaw_iff _).2 h

theorem State.outcomeTaken_requestLaw {s : State} (h : s.requestLaw) (tag : Option Byte) (a : Applied) : (s.outcomeTaken tag a).requestLaw := by
  unfold State.outcomeTaken
  split
  · exact State.takeOutcome_requestLaw h ..
  · exact h

theorem State.outcomeTaken_sendListLaw {s : State} (h : s.sendListLaw) {tag : Option Byte} (gone : ∀ t, tag = some t → t ∉ s.cont.sendList.map SendEntry.tag)
    (a : Applied) : (s.outcomeTaken tag a).sendListLaw := by
  unfold State.outcomeTaken
  split
  · exact State.takeOutcome_sendListLaw h (gone _ rfl) ..
  · exact h

/-- The request law alone survives the notices. -/
theorem State.notice_requestLaw {s : State} (hr : s.requestLaw) (n : Word) (g : TableGrant) : (s.notice n g).requestLaw := by
  unfold State.notice
  split
  · exact hr.complete rfl (.inr rfl)
  · exact hr

/-- What the effects by kind leave of a law that bookkeeping, EVICTED or REFUSED, and DEPARTED keep. -/
theorem State.afterApply_keeps {P : State → Prop} {s : State} (hs : P s) (quiet : ∀ {t}, s.Quiet t → P s → P t)
    (expel : ∀ st f n, P s → P (s.expel st f n)) (depart : ∀ n, P s → P (s.depart n)) (own : Bool) (before : Replica) (x : Station) (n : Word)
    (b : StateBody) : P (s.afterApply own before x n b) := by
  rcases s.afterApply_cases own before x n b with ⟨st, f, -, h⟩ | ⟨-, -, h⟩ | ⟨h, -⟩
  · rw [h]; exact expel _ _ _ hs
  · rw [h]; exact depart _ hs
  · exact quiet h hs

theorem State.expel_requestLaw {s : State} (h : s.requestLaw) (st : StationState) (f : EventFlag) (n : Word) : (s.expel st f n).requestLaw :=
  h.complete (State.expel_req ..) (.inr (by simp))

theorem State.depart_requestLaw {s : State} (h : s.requestLaw) (n : Word) : (s.depart n).requestLaw := h.complete rfl (.inr rfl)

theorem State.applyFrame_requestLaw {s : State} (h : s.requestLaw) (own : Bool) (tag : Option Byte) (x : Station) (b : StateBody) :
    (s.applyFrame own tag x b).requestLaw := by
  have core : (s.applied own tag x b).requestLaw := by
    refine (s.applied_quiet own tag x b).requestLaw (State.notices_keep (P := State.requestLaw) (fun s n g hs => State.notice_requestLaw hs n g) ?_ _ _)
    exact State.outcomeTaken_requestLaw (State.requestLaw.of_same (t := { s with replica := (s.replica.apply s.tableSize x b).replica }) h rfl (.inr rfl)) ..
  rw [State.applyFrame_eq_applied]
  split
  · exact State.afterApply_keeps core (fun hq hc => hq.requestLaw hc) (fun st f n hc => State.expel_requestLaw hc st f n)
      (fun n hc => State.depart_requestLaw hc n) ..
  · exact core

theorem State.applyFrame_requestLaws {s : State} (h : s.RequestLaws) (own : Bool) {tag : Option Byte}
    (gone : ∀ t, tag = some t → t ∉ s.cont.sendList.map SendEntry.tag) (x : Station) (b : StateBody) :
    (s.applyFrame own tag x b).RequestLaws := by
  have core : (s.applied own tag x b).RequestLaws := by
    have quiet := s.applied_quiet own tag x b
    have noticed := State.notices_keep (P := State.RequestLaws) (fun s n g hs => State.notice_requestLaws hs n g)
      (s := ({ s with replica := (s.replica.apply s.tableSize x b).replica } : State).outcomeTaken tag (s.replica.apply s.tableSize x b))
      ⟨State.outcomeTaken_requestLaw (State.requestLaw.of_same (t := { s with replica := (s.replica.apply s.tableSize x b).replica }) h.1 rfl (.inr rfl)) ..,
        State.outcomeTaken_sendListLaw (State.sendListLaw.of_same (t := { s with replica := (s.replica.apply s.tableSize x b).replica }) h.2 rfl rfl) gone _⟩
      (s.replica.apply s.tableSize x b).replica.sequence (s.replica.apply s.tableSize x b).grants
    exact ⟨quiet.requestLaw noticed.1, quiet.sendListLaw noticed.2⟩
  rw [State.applyFrame_eq_applied]
  split
  · exact State.afterApply_keeps core (fun hq hc => ⟨hq.requestLaw hc.1, hq.sendListLaw hc.2⟩)
      (fun st f n hc => ⟨State.expel_requestLaw hc.1 st f n, State.sendListLaw_of_nil (State.enterEnd_sendList _ st)⟩)
      (fun n hc => ⟨State.depart_requestLaw hc.1 n, State.sendListLaw_of_nil (State.enterEnd_sendList _ .departed)⟩) ..
  · exact core

/-! ### Every step -/

/-- The entry of an own frame has left the send list when its outcome is taken. -/
theorem State.endSource_entry_gone (s : State) (src : OfferSource) (t : Byte) (h : src.tag = some t) :
    t ∉ (s.endSource src).cont.sendList.map SendEntry.tag := by
  cases src with
  | entry tag =>
    obtain rfl : tag = t := Option.some.inj h
    intro ht
    obtain ⟨e, he, rfl⟩ := List.mem_map.1 ht
    have := (List.mem_filter.1 he).2
    simp at this
  | _ => cases h

theorem requestLaw_kept : Kept State.requestLaw where
  pending _ _ h := h
  reset _ _ := (State.requestLaw_iff _).2 ⟨RequestUnit.lawful_reset, nofun⟩
  chain := Local.requestLaw
  heard _ _ _ _ hs := State.applyFrame_requestLaw hs ..
  clash _ _ hs := State.expel_requestLaw (State.applyFrame_requestLaw hs ..) ..
  own src _ _ hs := State.applyFrame_requestLaw ((State.endSource_quiet _ src).requestLaw hs) ..
  founds _ hs := hs.of_same rfl (.inr rfl)
  installs _ _ _ _ _ _ hs := hs.complete rfl (.inr rfl)

/-- An installation completes what its table decides; a WITHDRAWING context that completes takes its WITHDRAW along (R120). -/
theorem State.install_sendListLaw {s : State} (h : s.sendListLaw) (sh : Shadow) : (s.install sh).sendListLaw := by
  rw [State.sendListLaw_iff] at *
  refine h.complete_removing (fun c => c.reconciled (s.port.installed sh) s.ctl.number)
    (fun tag => s.req.contexts.any fun c => c.tag == tag && c.state == .withdrawing && (c.reconciled (s.port.installed sh) s.ctl.number).isSome)
    fun c hc hd e he hs => List.any_eq_true.2 ⟨c, hc, ?_⟩
  obtain ⟨k, hk⟩ := Option.isSome_iff_exists.1 hd
  have hrec := (Context.decided_eq_some.1 hk).2
  have hst : c.state = .withdrawing := by
    unfold Context.reconciled at hrec
    split at hrec
    · exact ‹c.state = .waiting ∨ c.state = .withdrawing›.resolve_left hs.notWaiting
    · cases hrec
  simp [hst, hrec]

theorem requestLaws_kept : Kept State.RequestLaws where
  pending _ _ h := h
  reset s straps := ⟨requestLaw_kept.reset s straps, State.sendListLaw_of_nil rfl⟩
  chain h hs := ⟨h.requestLaw hs.1, h.sendListLaw hs.1 hs.2⟩
  heard _ _ _ _ hs := State.applyFrame_requestLaws hs _ (by simp) ..
  clash _ _ hs := ⟨State.expel_requestLaw (State.applyFrame_requestLaw hs.1 ..) .., State.sendListLaw_of_nil (State.enterEnd_sendList _ .refused)⟩
  own := fun {s} src b _ hs => by
    have quiet := s.endSource_quiet src
    exact State.applyFrame_requestLaws ⟨quiet.requestLaw hs.1, quiet.sendListLaw hs.2⟩ _ (s.endSource_entry_gone src) ..
  founds _ hs := ⟨hs.1.of_same rfl (.inr rfl), hs.2.of_same rfl rfl⟩
  installs _ _ _ _ _ _ hs := ⟨hs.1.complete rfl (.inr rfl), State.install_sendListLaw hs.2 _⟩

/-- Settles O54: every kind of change keeps the law of contexts and completion queue, and with it the law of the send list. -/
theorem stepKeepsTheRequestAndSendListLaws : Obligations.StepKeepsTheRequestAndSendListLaws := by
  unfold Obligations.StepKeepsTheRequestAndSendListLaws
  exact ⟨fun s t hs ht => requestLaw_kept.step hs ht, fun s t hr hs ht => (requestLaws_kept.step ⟨hr, hs⟩ ht).2⟩

end Sys2Proof.Machine
end

section
/-! The queue, hardware reset, the reads, TAKE, SUBMIT, and the settings of the port. -/

namespace Sys2Proof.Machine

/-- Settles O1. -/
theorem stepRunsTheCommandAtTheFront : Obligations.StepRunsTheCommandAtTheFront := by
  unfold Obligations.StepRunsTheCommandAtTheFront
  exact fun _ _ _ => rfl

/-! ### Hardware reset -/

/-- With no flag under its mask and no completion to notify, INTn is high. -/
theorem State.intnLow_eq_false {s : State} (flags : s.port.flags = 0#16) (notice : s.port.notice = false) : s.intnLow = false := by
  simp [State.intnLow, State.summary, flags, notice]

/-- Settles O5: every field of the state after HARDWARE_RESET is the reset value by definition. -/
theorem hardwareResetGivesEveryBlockItsResetValues : Obligations.HardwareResetGivesEveryBlockItsResetValues := by
  unfold Obligations.HardwareResetGivesEveryBlockItsResetValues
  intro straps s
  have remaining : ∀ x : Station, LeaseUnit.reset.remaining[x] = 0 := fun x => by simp [LeaseUnit.reset]
  exact ⟨_, rfl, ⟨rfl, rfl, rfl, rfl, rfl, rfl, rfl, rfl⟩, ⟨rfl, rfl, rfl, rfl, rfl, rfl⟩, ⟨rfl, rfl, rfl, rfl, rfl, rfl⟩,
    ⟨rfl, rfl, rfl, rfl, rfl, rfl, rfl, rfl, rfl, rfl, rfl⟩, Replica.empty_isEmptyForm, ⟨remaining, rfl, rfl⟩, ⟨rfl, rfl, rfl, rfl, rfl⟩,
    ⟨rfl, rfl⟩, State.intnLow_eq_false rfl rfl⟩

/-- Settles O56: the state after reset is what every law's `reset` clause speaks of, with an empty queue. -/
theorem lawsHoldAtReset : Obligations.LawsHoldAtReset := by
  unfold Obligations.LawsHoldAtReset
  have law : ∀ {P : State → Prop}, KeptBeforeInstall P → P (State.reset.afterReset 15) := fun h => h.reset State.reset 15
  exact ⟨law poolLaw_kept.toKeptBeforeInstall, law memberLaw_kept.toKeptBeforeInstall, law requestLaw_kept.toKeptBeforeInstall,
    (law requestLaws_kept.toKeptBeforeInstall).2, law countLaw_kept.toKeptBeforeInstall, law lineLaw_kept.toKeptBeforeInstall,
    law offlineLaw_kept.toKeptBeforeInstall, Replica.empty_lawful _, rfl⟩

/-! ### READ_STATUS -/

/-- A read that leaves the state answers its bytes on SDO and nothing else. -/
theorem State.shiftOut_self (s : State) (inputs after : Nat) (out : List Byte) : s.shiftOut inputs after out s = s.shifted inputs after out none :=
  s.shiftOut_eq s inputs after out

/-- The part of READ_STATUS before the context slots. -/
def State.statusHead (s : State) : List Byte :=
  [s.ctl.state.code, BitVec.ofNat 8 s.ctl.number.val, hiByte s.replica.sequence, loByte s.replica.sequence,
    hiByte s.port.digest, loByte s.port.digest, BitVec.ofNat 8 s.req.contexts.length, BitVec.ofNat 8 s.req.queue.length,
    hiByte s.port.flags, loByte s.port.flags, hiByte s.port.masks, loByte s.port.masks,
    (if s.summary then 0x80#8 else 0#8) ||| (if s.port.notice then 1#8 else 0#8), BitVec.ofNat 8 s.ctl.rejectCount]

/-- The sixteen bytes of the eight context slots. -/
def RequestUnit.slotBytes (r : RequestUnit) : List Byte := (r.contexts.flatMap Context.slotBytes ++ List.replicate 16 0#8).take 16

theorem State.statusBytes_eq (s : State) : s.statusBytes = s.statusHead ++ s.req.slotBytes := rfl

theorem slots_length (l : List Context) : (l.flatMap Context.slotBytes).length = 2 * l.length := by
  induction l with
  | nil => rfl
  | cons c l ih => simp [List.flatMap_cons, ih, Context.slotBytes]; omega

/-- A context's slot pair stands at twice its place. -/
theorem slots_getElem? (l : List Context) {k : Nat} {c : Context} (h : l[k]? = some c) :
    (l.flatMap Context.slotBytes)[2 * k]? = some (c.state.code ||| (if c.marked then 0x08#8 else 0#8)) ∧
    (l.flatMap Context.slotBytes)[2 * k + 1]? = some c.tag := by
  induction l generalizing k with
  | nil => cases h
  | cons d l ih =>
    cases k with
    | zero => obtain rfl : d = c := by simpa using h
              exact ⟨rfl, rfl⟩
    | succ k =>
      obtain ⟨h0, h1⟩ := ih (k := k) (by simpa using h)
      rw [Nat.mul_succ]
      exact ⟨h0, h1⟩

theorem RequestUnit.slotBytes_of_context {r : RequestUnit} {k : Nat} {c : Context} (hk : k < 8) (h : r.contexts[k]? = some c) :
    r.slotBytes[2 * k]? = some (c.state.code ||| (if c.marked then 0x08#8 else 0#8)) ∧ r.slotBytes[2 * k + 1]? = some c.tag := by
  have hlen : k < r.contexts.length := (List.getElem?_eq_some_iff.1 h).1
  have hslots := slots_length r.contexts
  obtain ⟨h0, h1⟩ := slots_getElem? r.contexts h
  unfold RequestUnit.slotBytes
  rw [List.getElem?_take_of_lt (by omega), List.getElem?_take_of_lt (by omega), List.getElem?_append_left (by omega),
    List.getElem?_append_left (by omega)]
  exact ⟨h0, h1⟩

theorem RequestUnit.slotBytes_of_free {r : RequestUnit} {i : Nat} (hk : i < 16) (h : 2 * r.contexts.length ≤ i) : r.slotBytes[i]? = some 0#8 := by
  have hslots := slots_length r.contexts
  unfold RequestUnit.slotBytes
  rw [List.getElem?_take_of_lt hk, List.getElem?_append_right (by omega), List.getElem?_replicate]
  exact if_pos (by omega)

/-- Settles O8: fourteen bytes by definition, then the slots. -/
theorem readStatusReturnsTheThirtyBytes : Obligations.ReadStatusReturnsTheThirtyBytes := by
  unfold Obligations.ReadStatusReturnsTheThirtyBytes
  intro s
  have after : ∀ i, s.statusBytes[14 + i]? = s.req.slotBytes[i]? := fun i => by
    rw [s.statusBytes_eq, List.getElem?_append_right (Nat.le_add_right 14 i)]
    exact congrArg _ (Nat.add_sub_cancel_left 14 i)
  refine ⟨fun n => congrArg Host.Outcome.next (s.shiftOut_self 0 n s.statusBytes), ?_, rfl, fun k c hk hc => ?_, fun k hc hk => ?_⟩
  · rw [s.statusBytes_eq, List.length_append]
    simp [State.statusHead, RequestUnit.slotBytes]
  · rw [show 15 + 2 * k = 14 + (2 * k + 1) by omega, after, after]
    exact RequestUnit.slotBytes_of_context hk hc
  · rw [show 15 + 2 * k = 14 + (2 * k + 1) by omega, after, after]
    exact ⟨RequestUnit.slotBytes_of_free (by omega) (by omega), RequestUnit.slotBytes_of_free (by omega) (by omega)⟩

/-! ### READ_ENTRY and READ_ROSTER -/

theorem StationState.applies_iff (st : StationState) : st.applies = true ↔ st = .inStep ∨ st = .leaving := by
  cases st <;> simp [StationState.applies]

theorem bitByte_applies (st : StationState) : bitByte st.applies = if st = .inStep ∨ st = .leaving then 1#8 else 0#8 := by
  unfold bitByte
  simp only [StationState.applies_iff]

theorem waiterBytes_length (ws : List Waiter) : (ws.flatMap Waiter.bytes).length = 2 * ws.length := by
  induction ws with
  | nil => rfl
  | cons w ws ih => simp [List.flatMap_cons, ih, Waiter.bytes]; omega

theorem ClaimState.recordBytes_length (i : Byte) (c : ClaimState) : (c.recordBytes i).length = 6 + 2 * c.waiters.length := by
  rw [ClaimState.recordBytes, List.length_append, waiterBytes_length]
  rfl

theorem padded_take (l : List Byte) {n : Nat} (h : l.length ≤ n) :
    (l ++ List.replicate n 0#8).take n = l ++ List.replicate (n - l.length) 0#8 := by
  simp [List.take_append, List.take_of_length_le h, List.take_replicate]

/-- READ_ENTRY of an index below TABLE_SIZE. -/
theorem State.entryBytes_of_lt {s : State} {index : Byte} (h : index.toNat < s.tableSize)
    (hw : (s.replica.entry index.toNat).waiters.length ≤ 15) :
    s.entryBytes index =
      [if s.ctl.state = .inStep ∨ s.ctl.state = .leaving then 1#8 else 0#8] ++
        ((s.replica.entry index.toNat).claimState.recordBytes index ++
          List.replicate (36 - ((s.replica.entry index.toNat).claimState.recordBytes index).length) 0#8) ++
        wordBytes (s.replica.entry index.toNat).permit ++ [if (s.replica.entry index.toNat).sharedOk then 1#8 else 0#8] := by
  have fits : ((s.replica.entry index.toNat).claimState.recordBytes index).length ≤ 36 := by
    rw [ClaimState.recordBytes_length]
    have : (s.replica.entry index.toNat).claimState.waiters = (s.replica.entry index.toNat).waiters := rfl
    rw [this]; omega
  have valid : bitByte (true && s.ctl.state.applies) ||| 0#8 = if s.ctl.state = .inStep ∨ s.ctl.state = .leaving then 1#8 else 0#8 := by
    rw [Bool.true_and, bitByte_applies]; simp
  unfold State.entryBytes State.readableEntry
  simp only [h, decide_true, if_true]
  rw [padded_take _ fits, valid]
  rfl

/-- READ_ENTRY of an index at or above TABLE_SIZE: the empty form, OUT_OF_RANGE. -/
theorem State.entryBytes_of_ge {s : State} {index : Byte} (h : s.tableSize ≤ index.toNat) :
    s.entryBytes index = [2#8, index] ++ List.replicate 38 0#8 := by
  unfold State.entryBytes State.readableEntry
  have empty : Entry.empty.claimState.recordBytes index = index :: List.replicate 5 0#8 := rfl
  have flags : bitByte false ||| 2#8 = 2#8 := rfl
  have attributes : wordBytes Entry.empty.permit ++ [bitByte Entry.empty.sharedOk] = List.replicate 3 0#8 := rfl
  simp only [Nat.not_lt.2 h, decide_false, if_false, empty, Bool.false_and, Bool.false_eq_true, flags, List.append_assoc, attributes]
  rfl

/-- The bits of two fields one behind the other. -/
theorem fieldBits_append {n m : Nat} (v : BitVec n) (w : BitVec m) : fieldBits (v ++ w) = fieldBits v ++ fieldBits w := by
  refine List.ext_getElem (by simp [fieldBits]) fun i h _ => ?_
  have hi : i < n + m := by simpa [fieldBits] using h
  by_cases hn : i < n
  · rw [List.getElem_append_left (by simpa [fieldBits] using hn)]
    simp [fieldBits, BitVec.getMsbD_append, Nat.not_le.2 hn]
  · rw [List.getElem_append_right (by simpa [fieldBits] using hn)]
    simp [fieldBits, BitVec.getMsbD_append, Nat.not_lt.1 hn]

/-- The four roster bytes are the codes of Table 2-1, two bits for each station in ascending order (R170). -/
theorem rosterBytes_bits (r : Vector Membership 16) (x : Station) :
    ((bytesBits (rosterBytes r)).drop (2 * x.val)).take 2 = fieldBits r[x].code := by
  have pair : ∀ a b c d : Membership, fieldBits (rosterByte a b c d) = fieldBits a.code ++ fieldBits b.code ++ fieldBits c.code ++ fieldBits d.code :=
    fun a b c d => by rw [rosterByte, fieldBits_append, fieldBits_append, fieldBits_append]
  simp only [bytesBits, rosterBytes, List.flatMap_cons, List.flatMap_nil, pair]
  fin_cases x <;> rfl

/-- Settles O9. -/
theorem readEntryAndRosterReturnTheReplica : Obligations.ReadEntryAndRosterReturnTheReplica := by
  unfold Obligations.ReadEntryAndRosterReturnTheReplica
  refine ⟨fun index s => ⟨fun n => congrArg Host.Outcome.next (s.shiftOut_self 1 n _), ?_, State.entryBytes_of_lt, State.entryBytes_of_ge⟩,
    fun s => ⟨rosterBytes s.replica.roster, fun n => ?_, rfl, rosterBytes_bits _⟩⟩
  · unfold State.entryBytes
    simp [wordBytes]
  · refine congrArg Host.Outcome.next ((s.shiftOut_self 0 n _).trans ?_)
    rw [State.rosterReadBytes, bitByte_applies]

/-! ### TAKE -/

/-- With no key twice, all but one element remain when the ones with its key are left out. -/
theorem length_filter_key_ne {α β : Type} [DecidableEq β] {l : List α} {f : α → β} (h : (l.map f).Nodup) {a : α} (ha : a ∈ l) :
    (l.filter fun b => f b != f a).length + 1 = l.length := by
  have left : (l.filter fun b => f b != f a).map f = (l.map f).erase (f a) := by
    rw [h.erase_eq_filter, List.filter_map]
    rfl
  have hmem : f a ∈ l.map f := List.mem_map_of_mem ha
  have hpos : 0 < l.length := List.length_pos_of_mem ha
  have hlen := congrArg List.length left
  rw [List.length_map, List.length_erase_of_mem hmem, List.length_map] at hlen
  omega

/-- The context of an unread record is DONE, and the only one with its tag. -/
theorem RequestUnit.Lawful.done_of_record {r : RequestUnit} (h : r.Lawful) {rec : CompletionRecord} (hr : rec ∈ r.queue) :
    ∃ c ∈ r.contexts, c.tag = rec.tag ∧ c.state = .done := by
  have ht : rec.tag ∈ r.doneTags := h.unread.mem_iff.2 (List.mem_map_of_mem hr)
  obtain ⟨c, hc, hct⟩ := List.mem_map.1 ht
  obtain ⟨hc, hd⟩ := List.mem_filter.1 hc
  exact ⟨c, hc, hct, by simpa using hd⟩

/-- Settles O10: the head record and its context, by the request law. -/
theorem takeReturnsTheHeadAndItsEndRemovesIt : Obligations.TakeReturnsTheHeadAndItsEndRemovesIt := by
  unfold Obligations.TakeReturnsTheHeadAndItsEndRemovesIt
  have taken : ∀ (after : Nat) (s : State), exec (.take (.clocked after)) s =
      .next (s.shifted 0 after (takeBytes s.req.queue.head?) (if 9 ≤ after then s.req.queue.head? else none)) := by
    intro after s
    refine congrArg Host.Outcome.next ?_
    simp only [State.transact, State.shiftOut_eq]
    rfl
  refine ⟨fun after s hq => ?_, fun after s r rs hq => ?_, fun s r rs hq hc hl => ?_, fun s hc => ?_⟩
  · rw [taken, hq]; simp [takeBytes]
  · rw [taken, hq]; rfl
  · have hreq := (s.requestLaw_iff.1 hl).1
    obtain ⟨d, hd, htag, hdone⟩ := hreq.done_of_record (rec := r) (by rw [hq]; exact List.mem_cons_self)
    have freed : (s.req.take r.tag).contexts = s.req.contexts.filter fun c => c.tag != r.tag := by
      refine List.filter_congr fun c hcm => ?_
      by_cases ht : c.tag = r.tag
      · obtain rfl := hreq.eq_of_tag (RequestUnit.find_of_mem hreq.tags hd) hcm (ht.trans htag.symm)
        simp [ht, hdone]
      · rw [beq_eq_false_iff_ne.2 ht, bne, beq_eq_false_iff_ne.2 ht]
        rfl
    refine ⟨{ s with req := s.req.take r.tag, port := { s.port with capture := none } }, ?_, ?_, freed, ?_, rfl⟩
    · simp [exec, execTakeRecordRemoval, hc]
    · simp [RequestUnit.take, hq]
    · show (s.req.take r.tag).contexts.length + 1 = _
      rw [freed, ← htag]
      exact length_filter_key_ne hreq.tags hd
  · simp [exec, execTakeRecordRemoval, hc]

end Sys2Proof.Machine
end

section
/-! SUBMIT, the flags, the configuration block and station control. -/

namespace Sys2Proof.Machine

/-! ### SUBMIT -/

theorem StationState.member_iff (st : StationState) : st.member = true ↔ st = .inStep ∨ st = .outOfStep ∨ st = .syncing ∨ st = .muted := by
  cases st <;> simp [StationState.member]

theorem RequestUnit.find_isSome_iff (r : RequestUnit) (tag : Byte) : (r.find tag).isSome = true ↔ ∃ c ∈ r.contexts, c.tag = tag := by
  simp [RequestUnit.find]

theorem RequestUnit.full_iff (r : RequestUnit) : r.full = true ↔ 8 ≤ r.contexts.length := decide_eq_true_iff

/-- The request is of an unknown kind, or a CLAIM of an unknown mode. -/
def malformed (r : RequestRecord) : Bool :=
  (requestKind r.kind).isNone || (requestKind r.kind == some .claim && (requestMode r.mode).isNone)

theorem malformed_iff (r : RequestRecord) :
    malformed r = true ↔ requestKind r.kind = none ∨ (requestKind r.kind = some .claim ∧ requestMode r.mode = none) := by
  simp [malformed]

/-- The status of SUBMIT, check by check (Table 8-2). -/
theorem State.submitStatus_eq (s : State) (r : RequestRecord) :
    s.submitStatus r =
      if ¬ s.ctl.state.member = true then .notMember
      else if malformed r = true then .badRequest
      else if s.tableSize ≤ r.resource.toNat then .badResource
      else if (s.req.find r.tag).isSome = true then .tagInUse
      else if s.req.full = true then .noContext
      else .accepted := by
  simp [State.submitStatus, malformed]

/-- What SUBMIT leaves behind its answer. -/
def State.submitted (s : State) (r : RequestRecord) : State :=
  match s.submitStatus r, requestKind r.kind with
  | .accepted, some k => s.accept r k
  | _, _ => s

theorem exec_submit (r : RequestRecord) (after : Nat) (s : State) :
    exec (.submit r (.clocked after)) s = .next (s.answerStatus 8 after (s.submitStatus r) (s.submitted r)) := rfl

theorem State.submitted_refused {s : State} {r : RequestRecord} (h : s.submitStatus r ≠ .accepted) : s.submitted r = s := by
  unfold State.submitted
  split
  · exact absurd ‹_› h
  · rfl

theorem State.submitted_accepted {s : State} {r : RequestRecord} {k : RequestKind} (h : s.submitStatus r = .accepted) (hk : requestKind r.kind = some k) :
    s.submitted r = s.accept r k := by
  unfold State.submitted
  rw [h, hk]

/-- SUBMIT of a record that fails a check answers the status and changes nothing. -/
theorem exec_submit_refused {r : RequestRecord} {s : State} {st : PortStatus} (h : s.submitStatus r = st) (hst : st ≠ .accepted) (after : Nat) :
    exec (.submit r (.clocked after)) s = .next (s.shifted 8 after [st.code] none) := by
  rw [exec_submit, State.submitted_refused (h ▸ hst), h]
  exact congrArg Host.Outcome.next (s.shiftOut_self 8 after _)

theorem exec_submit_accepted {r : RequestRecord} {s : State} {k : RequestKind} (h : s.submitStatus r = .accepted) (hk : requestKind r.kind = some k)
    (after : Nat) : exec (.submit r (.clocked after)) s = .next (s.answerStatus 8 after .accepted (s.accept r k)) := by
  rw [exec_submit, State.submitted_accepted h hk, h]

/-- Settles O11: the first failing check by the order of Table 8-2. -/
theorem submitOpensAContextOrReturnsTheFirstFailingCheck : Obligations.SubmitOpensAContextOrReturnsTheFirstFailingCheck := by
  unfold Obligations.SubmitOpensAContextOrReturnsTheFirstFailingCheck
  refine ⟨fun r k after s hm hk hmode hres htag hfew => ?_, fun r after s => ?_⟩
  · have good : malformed r = false := by
      rw [Bool.eq_false_iff, Ne, malformed_iff, hk]
      rintro (h | ⟨h, hnone⟩)
      · cases h
      · have := hmode (Option.some.inj h)
        simp [hnone] at this
    have unused : ¬ (s.req.find r.tag).isSome = true := by
      rw [RequestUnit.find_isSome_iff]
      rintro ⟨c, hc, ht⟩
      exact htag c hc ht
    have accepted : s.submitStatus r = .accepted := by
      rw [s.submitStatus_eq, if_neg (not_not.2 ((StationState.member_iff _).2 hm)), if_neg (by simp [good]), if_neg (by omega), if_neg unused,
        if_neg (by rw [RequestUnit.full_iff]; omega)]
    rw [exec_submit_accepted accepted hk]
    exact congrArg Host.Outcome.next (s.shiftOut_eq _ 8 after _)
  · dsimp only
    have status := s.submitStatus_eq r
    rw [← StationState.member_iff, ← malformed_iff, ← RequestUnit.find_isSome_iff, ← RequestUnit.full_iff]
    refine ⟨fun h => ?_, fun h h2 => ?_, fun h h2 h3 => ?_, fun h h2 h3 h4 => ?_, fun h h2 h3 h4 h5 => ?_⟩
    · rw [if_pos h] at status
      exact exec_submit_refused status nofun after
    · rw [if_neg h, if_pos h2] at status
      exact exec_submit_refused status nofun after
    · rw [if_neg h, if_neg h2, if_pos h3] at status
      exact exec_submit_refused status nofun after
    · rw [if_neg h, if_neg h2, if_neg h3, if_pos h4] at status
      exact exec_submit_refused status nofun after
    · rw [if_neg h, if_neg h2, if_neg h3, if_neg h4, if_pos h5] at status
      exact exec_submit_refused status nofun after

/-! ### CLEAR_FLAGS -/

theorem PortUnit.flag_clear (p : PortUnit) (mask : Word) (f : EventFlag) :
    ({ p with flags := p.flags &&& ~~~mask } : PortUnit).flag f = (p.flag f && !mask.getLsbD f.bit) := by
  simp [PortUnit.flag, f.bit_lt]

theorem State.intnLow_iff (s : State) :
    s.intnLow = true ↔ (∃ f : EventFlag, s.port.flag f = true ∧ s.port.masks.getLsbD f.bit = true) ∨ (s.port.notice = true ∧ s.req.queue ≠ []) := by
  rw [State.intnLow, Bool.or_eq_true, s.summary_iff]
  simp

theorem exec_clearFlags (mask : Word) (after : Nat) (s : State) :
    exec (.clearFlags mask (.clocked after)) s =
      .next { s with port := { s.port with flags := s.port.flags &&& ~~~mask, selected := none, sdo := s.sdoOf 2 after [0x00#8], capture := none } } :=
  congrArg Host.Outcome.next (s.shiftOut_eq { s with port := { s.port with flags := s.port.flags &&& ~~~mask } } 2 after [0x00#8])

/-- Settles O13. -/
theorem clearFlagsClearsTheMaskedFlags : Obligations.ClearFlagsClearsTheMaskedFlags := by
  unfold Obligations.ClearFlagsClearsTheMaskedFlags
  exact fun mask after s => ⟨_, exec_clearFlags mask after s, fun f => PortUnit.flag_clear s.port mask f, State.intnLow_iff _, rfl⟩

/-! ### WRITE_CONFIG -/

theorem PortUnit.writeBlock_getElem? (p : PortUnit) (offset : Nat) (data : List Byte) (i : Nat) :
    (p.writeBlock offset data).config[i]? = if offset ≤ i ∧ i < offset + data.length ∧ i < 195 then data[i - offset]? else p.config[i]? := by
  unfold PortUnit.writeBlock
  by_cases hi : i < 195
  · by_cases ho : offset ≤ i
    · by_cases hd : i < offset + data.length
      · have : i - offset < data.length := by omega
        simp [hi, ho, hd, this]
      · have : data[i - offset]? = none := List.getElem?_eq_none (by omega)
        simp [hi, ho, hd, this]
    · simp [hi, ho]
  · simp [hi]

theorem exec_writeConfig (offset count : Byte) (data : List Byte) (after : Nat) (s : State) :
    exec (.writeConfig offset count data (.clocked after)) s = .next
      (if data.length < count.toNat then s.shiftOut (2 + data.length) 0 [] s
      else if s.ctl.state ≠ .offline then s.answerStatus (2 + count.toNat) after .wrongState s
      else if count = 0#8 ∨ 195 < offset.toNat + count.toNat then s.answerStatus (2 + count.toNat) after .badOffset s
      else s.answerStatus (2 + count.toNat) after .accepted { s with port := s.port.writeBlock offset.toNat (data.take count.toNat) }) := rfl

/-- Settles O15: the checks of WRITE_CONFIG in order, and the block byte by byte. -/
theorem writeConfigWritesTheBlockWhileOffline : Obligations.WriteConfigWritesTheBlockWhileOffline := by
  unfold Obligations.WriteConfigWritesTheBlockWhileOffline
  intro offset count data after s hlen
  have whole : ¬ data.length < count.toNat := by omega
  refine ⟨fun ho hc hoff => ?_, fun ho hbad => ?_, fun ho => ?_, fun n hn => ?_⟩
  · have fits : ¬ (count = 0#8 ∨ 195 < offset.toNat + count.toNat) := by
      rintro (rfl | h)
      · exact absurd hc (by decide)
      · omega
    obtain ⟨config, written⟩ : ∃ config, s.port.writeBlock offset.toNat data = { s.port with config := config } := ⟨_, rfl⟩
    have byte := s.port.writeBlock_getElem? offset.toNat data
    rw [written] at byte
    rw [exec_writeConfig, if_neg whole, if_neg (not_not.2 ho), if_neg fits, List.take_of_length_le (by omega), written, State.answerStatus,
      State.shiftOut_eq]
    exact ⟨_, rfl, fun i h1 h2 => (byte i).trans (if_pos ⟨h1, by omega, by omega⟩), fun i h => (byte i).trans (if_neg (by omega)), rfl⟩
  · have bad : count = 0#8 ∨ 195 < offset.toNat + count.toNat := hbad.imp_left fun h => BitVec.eq_of_toNat_eq h
    rw [exec_writeConfig, if_neg whole, if_neg (not_not.2 ho), if_pos bad]
    exact congrArg Host.Outcome.next (s.shiftOut_self _ _ _)
  · rw [exec_writeConfig, if_neg whole, if_pos ho]
    exact congrArg Host.Outcome.next (s.shiftOut_self _ _ _)
  · have hn' : (data.take n).length = n := by rw [List.length_take]; omega
    rw [exec_writeConfig, if_pos (by omega), hn']
    exact congrArg Host.Outcome.next (s.shiftOut_self _ _ _)

/-! ### START -/

theorem PortUnit.configGood_iff (p : PortUnit) :
    p.configGood = true ↔ (p.configByte 0).toNat ≤ 3 ∧ (p.configByte 1).toNat ≤ 7 ∧ (p.configByte 2).toNat ≤ 2 ∧
      ∀ i : Nat, i < tableSizeOfCode (p.configByte 2) → (p.configByte (5 + 3 * i)).toNat ≤ 1 := by
  simp [PortUnit.configGood, and_assoc]

theorem exec_start (after : Nat) (s : State) :
    exec (.start (.clocked after)) s = .next
      (if s.ctl.state ≠ .offline then s.answerStatus 0 after .wrongState s
      else if !s.port.configGood then s.answerStatus 0 after .badConfig s
      else s.answerStatus 0 after .accepted s.started) := rfl

/-- Settles O16. -/
theorem startLocksAGoodBlockAndListens : Obligations.StartLocksAGoodBlockAndListens := by
  unfold Obligations.StartLocksAGoodBlockAndListens
  intro after s
  dsimp only
  rw [← PortUnit.configGood_iff]
  refine ⟨fun ho hg => ?_, fun ho hg => ?_, fun ho => ?_⟩
  · rw [exec_start, if_neg (not_not.2 ho), if_neg (by simp [hg]), State.answerStatus, State.shiftOut_eq]
    exact ⟨_, rfl, rfl, rfl, rfl, rfl, rfl, rfl, rfl, rfl, rfl, rfl, rfl⟩
  · rw [exec_start, if_neg (not_not.2 ho), if_pos (by simpa using hg)]
    exact congrArg Host.Outcome.next (s.shiftOut_self _ _ _)
  · rw [exec_start, if_pos ho]
    exact congrArg Host.Outcome.next (s.shiftOut_self _ _ _)

/-! ### Port LEAVE -/

/-- Completions to one plain result, for the contexts with a property. -/
theorem RequestUnit.complete_plain (r : RequestUnit) (p : Context → Bool) (k : Completion) (hopen : ∀ c, p c = true → c.state ≠ .done) :
    (r.complete fun c => if p c = true then some k else none).contexts = r.contexts.map (fun c => if p c = true then c.done else c) ∧
    (r.complete fun c => if p c = true then some k else none).queue = r.queue ++ (r.contexts.filter p).map fun c => c.record k := by
  have decided : ∀ c : Context, (c.decided fun c => if p c = true then some k else none) = if p c = true then some k else none := by
    intro c
    unfold Context.decided Context.isOpen
    by_cases hp : p c = true
    · simp [hp, hopen c hp]
    · simp [hp]
  constructor
  · refine List.map_congr_left fun c _ => ?_
    rw [decided]
    by_cases hp : p c = true <;> simp [hp, Context.finish, Context.done]
  · rw [RequestUnit.complete_queue]
    congr 1
    rw [← List.filterMap_eq_map, List.filterMap_filter]
    refine List.filterMap_congr fun c _ => ?_
    rw [decided]
    by_cases hp : p c = true <;> simp [hp]

/-- The contexts that an entry into LEAVING completes (R152). -/
def Context.unsent (c : Context) : Bool := c.state == .queuedLocal || c.state == .contending

theorem RequestUnit.abandonUnsent_eq (r : RequestUnit) :
    r.abandonUnsent = r.complete fun c => if c.unsent = true then some (.plain .abandoned) else none := by
  simp [RequestUnit.abandonUnsent, Context.unsent]

/-- What is left of an offer when the sources with a property stop driving in their arbitration field (R75). -/
def stoppedOffer (p : OfferSource → Bool) (o : Option Offer) : Option Offer := o.filter fun o => !(o.phase == .arbitrating && p o.source)

@[simp] theorem stoppedOffer_none (p : OfferSource → Bool) : stoppedOffer p none = none := rfl

theorem stoppedOffer_some (p : OfferSource → Bool) (o : Offer) :
    stoppedOffer p (some o) = if o.phase = .arbitrating ∧ p o.source = true then none else some o := by
  unfold stoppedOffer
  rw [Option.filter_some]
  by_cases hp : o.phase = .arbitrating <;> cases hs : p o.source <;> simp [hp]

/-- An offer past arbitration is not stopped, so what is asked of such an offer alone is answered as before. -/
theorem stoppedOffer_any_past (p : OfferSource → Bool) (o : Option Offer) (q : Offer → Bool) :
    ((stoppedOffer p o).any fun o => o.phase != .arbitrating && q o) = o.any fun o => o.phase != .arbitrating && q o := by
  cases o with
  | none => rfl
  | some o =>
    rw [stoppedOffer_some]
    split
    · simp [‹o.phase = .arbitrating ∧ _›.1]
    · rfl

/-- The sources whose flag or set the departure from IN_STEP clears (R69). -/
def OfferSource.ofMember : OfferSource → Bool
  | .train | .leave | .heartbeat | .reap _ => true
  | _ => false

/-- The source is the frame of a send-list entry whose tag has a property. -/
def OfferSource.entryIn (src : OfferSource) (p : Byte → Bool) : Bool :=
  match src with
  | .entry tag => p tag
  | _ => false

theorem OfferSource.entryIn_iff (p : Byte → Bool) (src : OfferSource) : src.entryIn p = true ↔ ∃ tag, src = .entry tag ∧ p tag = true := by
  cases src <;> simp [OfferSource.entryIn]

theorem ContentionUnit.removeEntries_stops (c : ContentionUnit) (p : Byte → Bool) :
    (c.removeEntries p).offer = stoppedOffer (fun src => src.entryIn p) c.offer := rfl

/-- The offer on the way into LEAVING: a member's station frame and an unsent context's frame stop in the arbitration field. -/
theorem State.enterLeaving_offer (s : State) :
    s.enterLeaving.cont.offer = stoppedOffer (fun src => src.entryIn s.req.unsent) (stoppedOffer OfferSource.ofMember s.cont.offer) := rfl

theorem State.enterLeaving_some {s : State} {o : Offer} (h : s.cont.offer = some o) :
    s.enterLeaving.cont.offer =
      if o.phase = .arbitrating ∧ (o.source.ofMember = true ∨ o.source.entryIn s.req.unsent = true) then none else some o := by
  rw [State.enterLeaving_offer, h, stoppedOffer_some]
  by_cases hm : o.phase = .arbitrating ∧ o.source.ofMember = true
  · rw [if_pos hm, if_pos ⟨hm.1, .inl hm.2⟩]
    rfl
  · rw [if_neg hm, stoppedOffer_some]
    exact if_congr (and_congr_right fun hp => (or_iff_right fun hs => hm ⟨hp, hs⟩).symm) rfl rfl

theorem State.enterLeaving_sendList (s : State) :
    s.enterLeaving.cont.sendList = (s.cont.sendList.filter fun e => !s.req.unsent e.tag).map fun e =>
      { e with carried := s.cont.offer.any fun o => o.phase != .arbitrating && o.source == .entry e.tag } := by
  refine List.map_congr_left fun e _ => ?_
  have past := s.enterLeaving_offer ▸ ((stoppedOffer_any_past (fun src => src.entryIn s.req.unsent) (stoppedOffer OfferSource.ofMember s.cont.offer)
    fun o => o.source == OfferSource.entry e.tag).trans (stoppedOffer_any_past OfferSource.ofMember s.cont.offer fun o => o.source == OfferSource.entry e.tag))
  rw [← past]
  rfl

theorem exec_portLeave (after : Nat) (s : State) :
    exec (.portLeave (.clocked after)) s = .next
      (if s.ctl.state = .inStep then s.answerStatus 0 after .accepted s.enterLeaving else s.answerStatus 0 after .wrongState s) := rfl

/-- Settles O17: field by field, the offer by its phase and source. -/
theorem portLeaveEntersLeaving : Obligations.PortLeaveEntersLeaving := by
  unfold Obligations.PortLeaveEntersLeaving
  refine ⟨fun after s h => ?_, fun after s h => ?_⟩
  · rw [exec_portLeave, if_pos h, State.answerStatus, State.shiftOut_eq]
    obtain ⟨hctx, hqueue⟩ := s.req.complete_plain Context.unsent (.plain .abandoned) fun c hc hd => by simp [Context.unsent, hd] at hc
    rw [← RequestUnit.abandonUnsent_eq] at hctx hqueue
    refine ⟨_, rfl, rfl, rfl, rfl, fun x => by simp [State.enterLeaving, State.leaveMember, LeaseUnit.reset], rfl, rfl, rfl, rfl, rfl, ?_, hqueue, ?_⟩
    · refine hctx.trans (List.map_congr_left fun c _ => ?_)
      simp [Context.unsent]
    · rintro unsent rfl
      refine ⟨s.enterLeaving_sendList, fun o ho hp => ?_, fun o ho hp => ⟨fun tag hs => ?_, fun hs => ?_, fun hs => ?_⟩, fun ho => ?_⟩
      · exact (State.enterLeaving_some ho).trans (if_neg fun k => hp k.1)
      · refine (State.enterLeaving_some ho).trans ?_
        simp only [hp, hs, OfferSource.ofMember, OfferSource.entryIn, true_and, Bool.false_eq_true, false_or]
        rfl
      · refine (State.enterLeaving_some ho).trans (if_pos ⟨hp, .inl ?_⟩)
        rcases hs with hs | hs | hs | ⟨x, hs⟩ <;> rw [hs] <;> rfl
      · refine (State.enterLeaving_some ho).trans (if_neg ?_)
        rcases hs with hs | hs <;> simp [hs, OfferSource.ofMember, OfferSource.entryIn]
      · exact s.enterLeaving_offer.trans (by rw [ho]; rfl)
  · rw [exec_portLeave, if_neg h]
    exact congrArg Host.Outcome.next (s.shiftOut_self _ _ _)

/-! ### REJOIN and RESTART -/

theorem StationState.ended_iff (st : StationState) : st.ended = true ↔ st = .departed ∨ st = .evicted ∨ st = .refused := by
  cases st <;> simp [StationState.ended]

/-- Entry into LISTENING stops a JOIN in its arbitration field and no other offer (R123). -/
theorem State.enterListening_offer (s : State) :
    s.enterListening.cont.offer = stoppedOffer (fun src => src == .join) s.cont.offer := rfl

/-- Settles O18. -/
theorem rejoinAndRestartListenAgain : Obligations.RejoinAndRestartListenAgain := by
  unfold Obligations.RejoinAndRestartListenAgain
  refine ⟨fun after s h => ?_, fun after s h => ?_, fun after s h => ?_, fun after s h => ?_⟩
  · rw [exec_rejoin_of_ended after ((StationState.ended_iff _).2 h), State.answerStatus, State.shiftOut_eq]
    refine ⟨_, rfl, rfl, rfl, rfl, rfl, rfl, rfl, rfl, rfl, fun ho => ?_, fun o ho => ?_⟩
    · exact s.enterListening_offer.trans (by rw [ho]; rfl)
    · refine (s.enterListening_offer.trans (by rw [ho, stoppedOffer_some])).trans ?_
      simp only [beq_iff_eq, and_comm]
  · rw [exec_rejoin_of_not_ended after (by rwa [← Bool.not_eq_true, StationState.ended_iff])]
    exact congrArg Host.Outcome.next (s.shiftOut_self _ _ _)
  · rw [exec_restart_of_started after h, State.answerStatus, State.shiftOut_eq]
    exact ⟨_, rfl, rfl, rfl, Replica.empty_isEmptyForm, rfl, rfl, rfl, rfl, rfl⟩
  · rw [exec_restart_of_offline after h]
    exact congrArg Host.Outcome.next (s.shiftOut_self _ _ _)

end Sys2Proof.Machine
end

section
/-! The first byte of a transaction, and the transactions that are not taken (R159, R160). -/

namespace Sys2Proof

/-- The codes of Table 9-1. -/
def transactionCodes : List Byte :=
  [0x01#8, 0x02#8, 0x03#8, 0x04#8, 0x10#8, 0x11#8, 0x12#8, 0x13#8, 0x20#8, 0x21#8, 0x22#8, 0x23#8, 0x24#8]

theorem transactionLength_of_unknown {code : Byte} (h : code ∉ transactionCodes) (rest : List Byte) : transactionLength code rest = none := by
  simp only [transactionCodes, List.mem_cons, List.not_mem_nil, or_false, not_or] at h
  simp [transactionLength, h]

theorem knownCode_of_unknown {code : Byte} (h : code ∉ transactionCodes) : knownCode code = false := by
  simp [knownCode, transactionLength_of_unknown h]

theorem transactionLength_isSome_of_known {code : Byte} (h : code ∈ transactionCodes) (rest : List Byte) : (transactionLength code rest).isSome = true := by
  simp only [transactionCodes, List.mem_cons, List.not_mem_nil, or_false] at h
  rcases h with rfl | rfl | rfl | rfl | rfl | rfl | rfl | rfl | rfl | rfl | rfl | rfl | rfl <;> rfl

theorem knownCode_of_known {code : Byte} (h : code ∈ transactionCodes) : knownCode code = true := transactionLength_isSome_of_known h []

theorem transactionOf_unknown {code : Byte} (h : code ∉ transactionCodes) (rest : List Byte) :
    transactionOf (code :: rest) = .unknownTransactionCode code (.clocked rest.length) := by
  simp [transactionOf, knownCode_of_unknown h]

theorem transactionOf_known {code : Byte} (h : code ∈ transactionCodes) (rest : List Byte) :
    transactionOf (code :: rest) = (takenTransaction code.toNat rest).getD (.transactionCutShort (code :: rest) (.clocked 0)) := by
  simp [transactionOf, knownCode_of_known h]

theorem transactionOf_writeConfig {offset count : Byte} {data r : List Byte} (h : data.length = count.toNat) :
    transactionOf (0x20#8 :: offset :: count :: (data ++ r)) = .writeConfig offset count data (.clocked r.length) := by
  have taken : takenTransaction 0x20 (offset :: count :: (data ++ r)) = some (.writeConfig offset count data (.clocked r.length)) := by
    simp [takenTransaction, ← h]
  rw [transactionOf_known (by simp [transactionCodes])]
  exact congrArg (Option.getD · _) taken

/-- Bytes cut short of a known code's length make no taken transaction. -/
theorem takenTransaction_of_cutShort {code : Byte} {rest : List Byte} (h : code ∈ transactionCodes) (hc : cutShort (code :: rest) = true) :
    takenTransaction code.toNat rest = none := by
  simp only [transactionCodes, List.mem_cons, List.not_mem_nil, or_false] at h
  rcases h with rfl | rfl | rfl | rfl | rfl | rfl | rfl | rfl | rfl | rfl | rfl | rfl | rfl
  case inr.inr.inr.inr.inr.inr.inr.inr.inl =>
    cases rest with
    | nil => rfl
    | cons offset rest =>
      cases rest with
      | nil => rfl
      | cons count rest =>
        have short : ¬ count.toNat ≤ rest.length := by
          have : rest.length + 1 + 1 + 1 < 3 + count.toNat := by simpa [cutShort, transactionLength] using hc
          omega
        show (if count.toNat ≤ rest.length then _ else _) = none
        exact if_neg short
  case inr.inr.inr.inr.inl =>
    have short : rest.length + 1 < 9 := by simpa [cutShort, transactionLength] using hc
    match rest, short with
    | [], _ | [_], _ | [_, _], _ | [_, _, _], _ | [_, _, _, _], _ | [_, _, _, _, _], _ | [_, _, _, _, _, _], _ | [_, _, _, _, _, _, _], _ => rfl
    | _ :: _ :: _ :: _ :: _ :: _ :: _ :: _ :: _, h => simp at h; omega
  case inr.inr.inr.inr.inr.inr.inl =>
    have short : rest.length + 1 < 3 := by simpa [cutShort, transactionLength] using hc
    match rest, short with
    | [], _ | [_], _ => rfl
    | _ :: _ :: _, h => simp at h; omega
  case inr.inr.inr.inr.inr.inr.inr.inl =>
    have short : rest.length + 1 < 4 := by simpa [cutShort, transactionLength] using hc
    match rest, short with
    | [], _ | [_], _ | [_, _], _ => rfl
    | _ :: _ :: _ :: _, h => simp at h; omega
  case inr.inl | inr.inr.inr.inr.inr.inl =>
    have short : rest = [] := by simpa [cutShort, transactionLength] using hc
    rw [short]; rfl
  all_goals simp [cutShort, transactionLength] at hc

theorem transactionOf_cutShort {bytes : List Byte} (h : cutShort bytes = true) : transactionOf bytes = .transactionCutShort bytes (.clocked 0) := by
  cases bytes with
  | nil => rfl
  | cons code rest =>
    by_cases hk : code ∈ transactionCodes
    · rw [transactionOf_known hk, takenTransaction_of_cutShort hk h]
      rfl
    · simp [cutShort, transactionLength_of_unknown hk] at h

namespace Machine

theorem exec_csnFall {c fall : Instr} (hw : c.wellFormed = true) (h : Instr.atCsnFall c = some fall) (s : State) :
    exec fall s = .next s.csnFalls := by
  cases c <;> simp only [Instr.atCsnFall, Option.some.injEq, reduceCtorEq] at h <;> subst h
  case unknownTransactionCode code spi =>
    have unknown : knownCode code = false := (Laws.WellFormedCheck.unknownTransactionCode code spi).1 hw
    simp [exec, execUnknownTransactionCode, unknown, State.transact]
  case transactionCutShort bytes spi =>
    have short : cutShort bytes = true := ((Laws.WellFormedCheck.transactionCutShort bytes spi).1 hw).1
    simp [exec, execTransactionCutShort, short, State.transact]
  all_goals rfl

/-- Settles O19: each code by its row, the rest by the codes' list. -/
theorem firstByteSpellsTheTransactionAndUntakenOnesChangeNothing : Obligations.FirstByteSpellsTheTransactionAndUntakenOnesChangeNothing := by
  unfold Obligations.FirstByteSpellsTheTransactionAndUntakenOnesChangeNothing
  refine ⟨fun r => ⟨rfl, rfl, rfl, rfl, rfl, rfl, rfl, fun a => ⟨rfl, rfl⟩, fun a b => rfl, fun a b c => rfl, fun k m res tag w1 w0 u1 u0 => rfl,
      fun offset count data h => transactionOf_writeConfig h⟩,
    fun code rest h => transactionOf_unknown h rest, fun bytes h => transactionOf_cutShort h, fun c fall s hw h => exec_csnFall hw h s,
    fun code after s h => ?_, fun code rest after s h => ?_, fun after s => rfl⟩
  · have unknown : knownCode code = false := knownCode_of_unknown h
    simp only [exec, execUnknownTransactionCode, unknown, Bool.false_eq_true, if_false]
    exact congrArg Host.Outcome.next (s.shiftOut_self 0 after _)
  · simp only [exec, execTransactionCutShort, h, if_true]
    exact congrArg Host.Outcome.next (s.shiftOut_self rest.length 0 _)

/-! ### CANCEL and WAIT_TIMER_EXPIRY -/

theorem RequestUnit.find_complete (r : RequestUnit) (f : Context → Option Completion) (tag : Byte) :
    (r.complete f).find tag = (r.find tag).map fun c => if (c.decided f).isSome then c.finish else c := by
  unfold RequestUnit.find RequestUnit.complete
  rw [List.find?_map]
  congr 2
  funext c
  simp only [Function.comp]
  split <;> rfl

/-- Completion of the one context with a tag. -/
theorem RequestUnit.complete_queue_of_tag {r : RequestUnit} (h : r.Lawful) {c : Context} (hc : c ∈ r.contexts) {f : Context → Option Completion}
    (others : ∀ d, d.tag ≠ c.tag → f d = none) : (r.complete f).queue = r.queue ++ ((c.decided f).map c.record).toList := by
  rw [RequestUnit.complete_queue]
  congr 1
  have alone : ∀ l : List Context, (l.map Context.tag).Nodup → c ∈ l →
      (l.filterMap fun d => (d.decided f).map d.record) = ((c.decided f).map c.record).toList := by
    intro l
    induction l with
    | nil => intro _ h; cases h
    | cons d l ih =>
      intro hn hm
      obtain ⟨hout, hn⟩ := List.nodup_cons.1 hn
      rcases List.mem_cons.1 hm with rfl | hm
      · have rest : (l.filterMap fun d => (d.decided f).map d.record) = [] := by
          refine List.filterMap_eq_nil_iff.2 fun d hd => ?_
          have hne : d.tag ≠ c.tag := fun ht => hout (ht ▸ List.mem_map_of_mem hd)
          simp [Context.decided, others d hne]
        rw [List.filterMap_cons, rest]
        cases (c.decided f).map c.record <;> rfl
      · have hne : d.tag ≠ c.tag := fun ht => hout (ht ▸ List.mem_map_of_mem hm)
        have skip : (d.decided f).map d.record = none := by simp [Context.decided, others d hne]
        rw [List.filterMap_cons, skip]
        exact ih hn hm
  exact alone r.contexts h.tags hc

/-- An open context with a recorded cause completes with it, and no other context with it. -/
theorem RequestUnit.completeCause_of_marked {r : RequestUnit} (h : r.Lawful) {c : Context} (hc : c ∈ r.contexts) (hopen : c.state ≠ .done)
    {res : Result} (hres : c.cause.result = some res) (g n : Word) :
    (r.completeCause c.tag g n).queue = r.queue ++ [c.record { result := res, tooLate := false, generation := g, sequence := n }] ∧
    (r.completeCause c.tag g n).find c.tag = some c.finish := by
  have decided : c.decided (fun d => if d.tag == c.tag then
      d.cause.result.map fun res => { result := res, tooLate := false, generation := g, sequence := n } else none) =
      some { result := res, tooLate := false, generation := g, sequence := n } := by
    rw [Context.decided_eq_some]
    exact ⟨hopen, by simp [hres]⟩
  constructor
  · refine (RequestUnit.complete_queue_of_tag h hc fun d hd => by simp [hd]).trans ?_
    rw [decided]; rfl
  · refine (RequestUnit.find_complete ..).trans ?_
    rw [RequestUnit.find_of_mem h.tags hc, Option.map_some, decided]
    rfl

/-- Completions by one tag leave every other context. -/
theorem RequestUnit.find_completeCause_ne (r : RequestUnit) {tag t : Byte} (h : t ≠ tag) (g n : Word) : (r.completeCause tag g n).find t = r.find t := by
  refine (RequestUnit.find_complete ..).trans ?_
  cases hf : r.find t with
  | none => rfl
  | some c =>
    obtain rfl : c.tag = t := (RequestUnit.mem_of_find hf).2
    simp [Context.decided, h]

theorem ContentionUnit.removeEntry_stopped (s t : State) (tag : Byte) (h : t.cont.offer = (s.cont.removeEntry tag).offer) :
    s.offerStopped t fun x => x = tag := by
  rw [ContentionUnit.removeEntry, ContentionUnit.removeEntries_stops] at h
  refine ⟨fun o x ho hp hs hx => ?_, fun o ho hk => ?_, fun ho => by rw [h, ho]; rfl⟩
  · rw [h, ho, stoppedOffer_some, if_pos ⟨hp, by rw [OfferSource.entryIn_iff]; exact ⟨x, hs, by simpa using hx⟩⟩]
  · rw [h, ho, stoppedOffer_some, if_neg]
    rintro ⟨hp, hs⟩
    obtain ⟨x, hsx, hx⟩ := (OfferSource.entryIn_iff _ _).1 hs
    exact hk.elim (fun h => h hp) fun h => h x hsx (by simpa using hx)

/-- Expiry and CANCEL by the state of the context (Table 8-6). -/
theorem State.endByCause_unsent {s : State} {c : Context} (hf : s.req.find c.tag = some c) (h : c.state = .queuedLocal ∨ c.state = .contending)
    (cause : Cause) : s.endByCause c.tag cause =
      { s with req := (s.req.update c.tag fun c => c.mark cause).completeCause c.tag 0#16 0#16, cont := s.cont.removeEntry c.tag } := by
  unfold State.endByCause
  rw [hf]
  rcases h with h | h <;> simp [h]

theorem State.endByCause_waiting {s : State} {c : Context} (hf : s.req.find c.tag = some c) (h : c.state = .waiting) (cause : Cause) :
    s.endByCause c.tag cause = { s with req := (s.req.update c.tag fun c => c.mark cause).update c.tag Context.withdraw,
                                        cont := s.cont.addEntry c.withdrawEntry } := by
  unfold State.endByCause
  rw [hf]
  simp [h]

theorem State.endByCause_transmitting {s : State} {c : Context} (hf : s.req.find c.tag = some c) (h : c.state = .transmitting) (cause : Cause) :
    s.endByCause c.tag cause = { s with req := s.req.update c.tag fun c => c.mark cause } := by
  unfold State.endByCause
  rw [hf]
  simp [h]

/-- The context with a tag after a mark, and every other one. -/
theorem RequestUnit.find_mark (r : RequestUnit) (tag t : Byte) (cause : Cause) :
    (r.update tag fun c => c.mark cause).find t = if t = tag then (r.find t).map fun c => c.mark cause else r.find t :=
  r.find_update tag t _ fun _ => rfl

theorem Context.mark_of_unmarked {c : Context} (h : c.cause = .none) (cause : Cause) : c.mark cause = { c with cause := cause, waitTimer := .stopped } := by
  simp [Context.mark, h]

/-- What expiry or CANCEL makes of an unmarked context in the states in which it acts (Table 8-6). -/
theorem State.endByCause_endedByCause {s : State} (hl : s.req.Lawful) {c : Context} (hc : c ∈ s.req.contexts) (hnone : c.cause = .none)
    {cause : Cause} {res : Result} (hres : cause.result = some res)
    (hst : c.state = .queuedLocal ∨ c.state = .contending ∨ c.state = .waiting ∨ c.state = .transmitting) :
    s.endedByCause (s.endByCause c.tag cause) c cause res := by
  have found := RequestUnit.find_of_mem hl.tags hc
  have marked := Context.mark_of_unmarked hnone cause
  have lawful : (s.req.update c.tag fun c => c.mark cause).Lawful := hl.update _ (fun _ => rfl) fun _ _ _ => Iff.rfl
  have foundMarked : (s.req.update c.tag fun c => c.mark cause).find c.tag = some (c.mark cause) := by
    rw [RequestUnit.find_mark, if_pos rfl, found]; rfl
  have others : ∀ t, t ≠ c.tag → (s.req.update c.tag fun c => c.mark cause).find t = s.req.find t := fun t ht => by
    rw [RequestUnit.find_mark, if_neg ht]
  by_cases hu : c.state = .queuedLocal ∨ c.state = .contending
  · have hopen : (c.mark cause).state ≠ .done := by rcases hu with h | h <;> simp [h]
    have hcause : (c.mark cause).cause.result = some res := by rw [marked]; exact hres
    obtain ⟨hq, hfind⟩ := RequestUnit.completeCause_of_marked lawful (RequestUnit.mem_of_find foundMarked).1 hopen hcause 0#16 0#16
    rw [State.endByCause_unsent found hu]
    refine ⟨fun _ => ⟨hq, by rw [show (RequestUnit.completeCause _ c.tag _ _).find c.tag = _ from hfind]; rfl, rfl,
      ContentionUnit.removeEntry_stopped _ _ _ rfl⟩, fun h => ?_, fun h => ?_, fun t ht => ?_, rfl, rfl⟩
    · simp [h] at hu
    · simp [h] at hu
    · exact (RequestUnit.find_completeCause_ne _ ht _ _).trans (others t ht)
  · rcases hst.imp_right (Or.imp_right (Or.imp_right id)) with h | h | h | h
    · exact absurd (.inl h) hu
    · exact absurd (.inr h) hu
    · rw [State.endByCause_waiting found h]
      refine ⟨fun k => absurd k hu, fun _ => ⟨rfl, ?_, rfl, rfl⟩, fun k => ?_, fun t ht => ?_, rfl, rfl⟩
      · show ((s.req.update c.tag fun c => c.mark cause).update c.tag Context.withdraw).find c.tag = _
        rw [RequestUnit.find_update _ c.tag c.tag Context.withdraw (fun _ => rfl), if_pos rfl, foundMarked, marked]
        rfl
      · simp [h] at k
      · refine (RequestUnit.find_update _ c.tag t Context.withdraw fun _ => rfl).trans ?_
        rw [if_neg ht, others t ht]
    · rw [State.endByCause_transmitting found h]
      refine ⟨fun k => absurd k hu, fun k => ?_, fun _ => ⟨rfl, foundMarked.trans (congrArg some marked), rfl⟩, others, rfl, rfl⟩
      simp [h] at k

theorem exec_cancel (tag : Byte) (after : Nat) (s : State) :
    exec (.cancel tag (.clocked after)) s = .next
      (if (s.req.find tag).any Context.cancellable then s.answerStatus 1 after .accepted (s.endByCause tag .cancelled)
      else s.answerStatus 1 after .notPending s) := rfl

/-- The law of Table 8-6 does not read what a transaction's end writes on the port. -/
theorem State.endedByCause.answered {s t : State} {c : Context} {cause : Cause} {res : Result} (h : s.endedByCause t c cause res) (p : PortUnit) :
    s.endedByCause { t with port := p } c cause res := by
  obtain ⟨h1, h2, h3, h4, h5, h6⟩ := h
  refine ⟨fun k => ?_, h2, h3, h4, h5, ?_⟩
  · obtain ⟨hq, hd, hs, ho⟩ := h1 k
    exact ⟨hq, hd, hs, ho⟩
  · rw [h6]

/-- Settles O12. -/
theorem cancelAndExpiryActByTheContextState : Obligations.CancelAndExpiryActByTheContextState := by
  unfold Obligations.CancelAndExpiryActByTheContextState
  refine ⟨⟨fun after s c hl hc hnone hst => ?_, fun after s c hl hc hmarked hst hkind => ?_, fun after s tag hno => ?_⟩,
    fun s c us hl hc hnone htimer hst => ?_⟩
  · obtain ⟨hreq, -⟩ := s.requestLaw_iff.1 hl
    have found := RequestUnit.find_of_mem hreq.tags hc
    have taken : (s.req.find c.tag).any Context.cancellable = true := by
      rw [found]
      rcases hst with h | h | h | ⟨h, hk⟩ <;> simp [Context.cancellable, *]
    have acts : c.state = .queuedLocal ∨ c.state = .contending ∨ c.state = .waiting ∨ c.state = .transmitting :=
      hst.imp_right (Or.imp_right (Or.imp_right And.left))
    rw [exec_cancel, if_pos taken, State.answerStatus, State.shiftOut_eq]
    refine ⟨_, rfl, ?_, (State.endByCause_endedByCause hreq hc hnone rfl acts).answered _⟩
    simp [PortStatus.code]
  · obtain ⟨hreq, -⟩ := s.requestLaw_iff.1 hl
    have found := RequestUnit.find_of_mem hreq.tags hc
    have taken : (s.req.find c.tag).any Context.cancellable = true := by
      rw [found]
      simp [Context.cancellable, hst, hkind]
    rw [exec_cancel, if_pos taken, State.endByCause_transmitting found hst, State.answerStatus, State.shiftOut_eq]
    refine ⟨_, rfl, rfl, rfl, ?_, rfl⟩
    show (s.req.update c.tag fun c => c.mark .cancelled).find c.tag = _
    rw [RequestUnit.find_mark, if_pos rfl, found]
    simp [Context.mark, hmarked]
  · have refused : (s.req.find tag).any Context.cancellable = false := by
      cases hf : s.req.find tag with
      | none => rfl
      | some c =>
        rcases hno c hf with h | h | ⟨h, hk⟩ <;> simp [Context.cancellable, *]
    rw [exec_cancel, refused]
    exact congrArg Host.Outcome.next (s.shiftOut_self _ _ _)
  · obtain ⟨hreq, -⟩ := s.requestLaw_iff.1 hl
    have found := RequestUnit.find_of_mem hreq.tags hc
    have runs : (s.req.find c.tag).any (fun c => c.isOpen && c.waitTimer.isRunning) = true := by
      rw [found]
      rcases hst with h | h | h | h <;> simp [Context.isOpen, Timer.isRunning, htimer, h]
    refine ⟨_, congrArg Host.Outcome.next (if_pos runs), by simp, State.endByCause_endedByCause hreq hc hnone rfl hst⟩

end Machine
end Sys2Proof
end

section
/-! The countdown events, the counts' events, arbitration and the start of an offer (R42, R47, R72 to R76, R100, R102, R105, R123). -/

namespace Sys2Proof.Machine

/-! ### Countdown events -/

theorem exec_leaseExpired (x : Station) (s : State) : exec (.leaseExpired x) s = .next
    (if s.leaseRunning x then { s with lease := { s.lease with remaining := s.lease.remaining.set x 0, reapSet := s.lease.reapSet.addStation x } } else s) :=
  rfl

/-- A station without time left has no running countdown. -/
theorem State.leaseRunning_of_spent {s : State} {x : Station} (h : s.lease.remaining[x] = 0) : s.leaseRunning x = false := by
  simp [State.leaseRunning, h]

theorem exec_joinWaitElapsed_of_listening {us : Nat} {s : State} (ht : s.ctl.joinWait = .running us) (hs : s.ctl.state = .listening) :
    exec .joinWaitElapsed s = .next
      { s with ctl := { s.ctl with joinWait := .stopped, state := .joining, rejectCount := 0 },
               cont := { s.cont with joinPending := true, attempts := { s.cont.attempts with join := 0 } } } := by
  simp only [exec, execJoinWaitElapsed, ht, hs]

theorem exec_joinWaitElapsed_of_else {s : State} (h : s.ctl.joinWait = .stopped ∨ s.ctl.state ≠ .listening) :
    exec .joinWaitElapsed s = .next s := by
  refine congrArg Host.Outcome.next ?_
  split
  next hw hs =>
    rcases h with h | h
    · rw [h] at hw; cases hw
    · exact absurd hs h
  next => rfl

theorem exec_heartbeatDue_of_running {us : Nat} {s : State} (h : s.lease.heartbeat = .running us) : exec .heartbeatDue s = .next
    { s with lease := { s.lease with heartbeat := .stopped },
             cont := { s.cont with heartbeatDue := true,
                                   attempts := if s.cont.heartbeatDue then s.cont.attempts else { s.cont.attempts with heartbeat := 0 } } } := by
  simp only [exec, execHeartbeatDue, h]

/-- Settles O47: each event by whether its countdown runs. -/
theorem countdownEventsSetTheirFlags : Obligations.CountdownEventsSetTheirFlags := by
  unfold Obligations.CountdownEventsSetTheirFlags
  refine ⟨fun x s h => ⟨_, congrArg Host.Outcome.next (if_pos h), ?_, ?_, ?_, fun y hy => ⟨?_, ?_⟩, rfl⟩,
    fun x s h => ?_, fun us s h => ?_, fun s h => ?_, fun us s h => ?_, fun s h => ?_,
    fun us s ht hs => ⟨_, exec_joinWaitElapsed_of_listening ht hs, rfl, rfl, rfl, rfl, rfl, rfl⟩, fun s h => exec_joinWaitElapsed_of_else h⟩
  · simp [StationSet.has_addStation]
  · simp
  · exact State.leaseRunning_of_spent (by simp)
  · simpa using Vector.getElem_set_ne x.isLt y.isLt (fun hv => hy (Fin.ext hv.symm))
  · simp [StationSet.has_addStation, hy]
  · rw [exec_leaseExpired, h]; rfl
  · exact ⟨_, exec_heartbeatDue_of_running h, rfl, rfl, rfl, rfl, rfl, rfl⟩
  · simp only [exec, execHeartbeatDue, h]
  · simp only [exec, execRetryTimerExpiry, h]
  · simp only [exec, execRetryTimerExpiry, h]

/-! ### Muting and recovery -/

theorem exec_enterMuted (s : State) :
    exec .enterMuted s = .next (if s.ctl.state.rejects && decide (16 ≤ s.ctl.rejectCount) then s.enterMuted else s) := rfl

theorem State.leaveMember_ctl_kept (s : State) : (if s.ctl.state.applies then s.leaveMember else s).ctl = s.ctl := by split <;> rfl

/-- Settles O48. -/
theorem countsMuteAndRecoverTheStation : Obligations.CountsMuteAndRecoverTheStation := by
  unfold Obligations.CountsMuteAndRecoverTheStation
  refine ⟨fun s hr hn => ⟨s.enterMuted, ?_, ?_, by simp [State.enterMuted], ?_, ?_, ?_, ?_, rfl, rfl, fun hm => ?_⟩, fun s h => ?_,
    fun s hm hc => congrArg Host.Outcome.next (if_pos ⟨hm, hc⟩), fun s h => congrArg Host.Outcome.next (if_neg fun k => ?_)⟩
  · rw [exec_enterMuted, if_pos (by simp [hr, hn])]
  · unfold State.enterMuted; split <;> rfl
  · unfold State.enterMuted; split <;> rfl
  · unfold State.enterMuted; split <;> rfl
  · unfold State.enterMuted; split <;> rfl
  · unfold State.enterMuted; split <;> rfl
  · have member : s.ctl.state.applies = true := (StationState.applies_iff _).2 hm
    unfold State.enterMuted
    rw [if_pos member]
    exact ⟨rfl, fun x => by simp [State.leaveMember, LeaseUnit.reset], rfl, rfl, rfl, rfl, rfl⟩
  · rw [exec_enterMuted, if_neg]
    simp only [Bool.and_eq_true, decide_eq_true_eq, not_and]
    intro hr
    rcases h with h | h
    · rw [h] at hr; cases hr
    · omega
  · obtain ⟨hm, hc⟩ := k
    rcases h with h | h
    · exact h hm
    · exact absurd hc (by simp only [Config.cleanLimit]; omega)

/-! ### Arbitration -/

/-- The arbitration field of a frame: CLASS and STATION (R73). -/
def arbitrationField (number : Station) (f : TxFrame) : List Bool := fieldBits f.kind.cls ++ fieldBits (stationBits number)

theorem fieldBits_length {n : Nat} (v : BitVec n) : (fieldBits v).length = n := by simp [fieldBits]

theorem arbitrationField_length (number : Station) (f : TxFrame) : (arbitrationField number f).length = 6 := by
  simp [arbitrationField, fieldBits_length]

/-- The data slots of a frame begin with its arbitration field. -/
theorem dataSlots_raw (number : Station) (f : TxFrame) : ∃ rest : List Bool, dataSlots (f.raw number) = arbitrationField number f ++ rest :=
  ⟨_, by simp only [dataSlots, frameBits, TxFrame.raw, arbitrationField, List.append_assoc]; rfl⟩

theorem dataSlots_raw_take (number : Station) (f : TxFrame) {n : Nat} (h : n ≤ 6) :
    (dataSlots (f.raw number)).take n = (arbitrationField number f).take n := by
  obtain ⟨rest, hr⟩ := dataSlots_raw number f
  rw [hr, List.take_append_of_le_length (by rw [arbitrationField_length]; exact h)]

theorem dataSlots_raw_getElem? (number : Station) (f : TxFrame) {n : Nat} (h : n < 6) :
    (dataSlots (f.raw number))[n]? = (arbitrationField number f)[n]? := by
  obtain ⟨rest, hr⟩ := dataSlots_raw number f
  rw [hr, List.getElem?_append_left (by rw [arbitrationField_length]; exact h)]

/-- Before LEN has come every slot runs through the check accumulator. -/
theorem slotsCheck_of_lt {slots : List Bool} (h : slots.length < 33) : slotsCheck slots = checkBits 0xFFFF#16 slots := by
  simp only [slotsCheck, coveredSlots, if_pos h]
  rfl

theorem ContentionUnit.loseArbitration_arbitrating {c : ContentionUnit} {o : Offer} (h : c.offer = some o) (hp : o.phase = .arbitrating) :
    c.loseArbitration = { c with offer := none } := by
  simp [ContentionUnit.loseArbitration, ContentionUnit.stopArbitration, h, hp]

theorem exec_arbitrationLost {s : State} {o : Offer} (h : s.cont.offer = some o) (hp : o.phase = .arbitrating) (slot : Nat) :
    exec (.arbitrationLost slot) s = .next
      (if slot < 6 ∧ (s.offerSlots o)[slot]? = some true then
        { s with cont := s.cont.loseArbitration, line := s.line.sampled ((s.offerSlots o).take slot ++ [false]) }
      else s) := by
  simp only [exec, execArbitrationLost, h, hp, true_and]

theorem State.passArbitration_of_arbitrating {s : State} {o : Offer} (h : s.cont.offer = some o) (hp : o.phase = .arbitrating) :
    ∃ req : RequestUnit, s.passArbitration = { s with cont := { s.cont with offer := some { o with phase := .sending } },
                                                      line := s.line.sampled ((s.offerSlots o).take 6), req := req } ∧
      req.queue = s.req.queue ∧ ∀ tag, o.source = .entry tag → req = s.req.update tag Context.passed := by
  unfold State.passArbitration
  rw [h]
  simp only [hp, if_true]
  cases hs : o.source with
  | entry tag => exact ⟨_, rfl, rfl, fun t ht => by cases ht; rfl⟩
  | _ => exact ⟨_, rfl, rfl, by simp⟩

/-- Settles O22. -/
theorem arbitrationEndsInLossOrSending : Obligations.ArbitrationEndsInLossOrSending := by
  unfold Obligations.ArbitrationEndsInLossOrSending
  refine ⟨fun slot s o h hp => ?_, fun slot s h => ?_, fun s o h hp => ?_⟩
  · intro field sampled
    have field_eq : field = arbitrationField s.ctl.number o.frame := rfl
    rw [exec_arbitrationLost h hp]
    constructor
    · intro hd
      have inField : slot < 6 := by
        have := (List.getElem?_eq_some_iff.1 hd).1
        rwa [field_eq, arbitrationField_length] at this
      rw [if_pos ⟨inField, by rw [State.offerSlots, dataSlots_raw_getElem? _ _ inField]; exact hd⟩,
        ContentionUnit.loseArbitration_arbitrating h hp, State.offerSlots, dataSlots_raw_take _ _ inField.le, LineUnit.sampled, slotsCheck_of_lt]
      · rfl
      · rw [List.length_append, List.length_take, List.length_singleton]
        omega
    · intro hd
      rw [if_neg]
      rintro ⟨inField, hs⟩
      rw [State.offerSlots, dataSlots_raw_getElem? _ _ inField] at hs
      exact hd hs
  · cases ho : s.cont.offer with
    | none => simp only [exec, execArbitrationLost, execArbitrationPassed, State.passArbitration, ho, and_self]
    | some o =>
      have past := h o ho
      simp [exec, execArbitrationLost, execArbitrationPassed, State.passArbitration, ho, past]
  · obtain ⟨req, passes, queue, context⟩ := State.passArbitration_of_arbitrating h hp
    have found : ∀ (tag : Byte) (c : Context), o.source = .entry tag → s.req.find tag = some c → req.find tag = some c.passed := fun tag c hs hf => by
      rw [context tag hs, RequestUnit.find_update _ tag tag Context.passed (fun c => by cases hc : c.state <;> simp [Context.passed, hc]), if_pos rfl, hf]
      rfl
    refine ⟨_, congrArg Host.Outcome.next passes, rfl, ?_, fun tag c hs hf => ⟨fun hc => ?_, fun hc => ?_⟩, queue, rfl⟩
    · rw [State.offerSlots, dataSlots_raw_take _ _ le_rfl, List.take_of_length_le (arbitrationField_length ..).le]
      have short : (arbitrationField s.ctl.number o.frame).length < 33 := by rw [arbitrationField_length]; decide
      rw [LineUnit.sampled, slotsCheck_of_lt short]
      rfl
    · rw [found tag c hs hf]; simp [Context.passed, hc]
    · rw [found tag c hs hf]; simp [Context.passed, hc]

/-! ### The start of an offer -/

theorem State.freeOfOtherHold_iff (s : State) (x : Station) : s.freeOfOtherHold x = true ↔ s.noIntrusionBy x := by
  unfold State.freeOfOtherHold State.noIntrusionBy
  cases s.cont.hold <;> simp

/-- An offer may begin (R72). -/
def State.mayOffer (s : State) : Bool :=
  s.active && !s.frameInProgress && decide (6 ≤ s.line.idleCount) && s.freeOfOtherHold s.ctl.number && !s.cont.silent

theorem State.mayOffer_iff (s : State) : s.mayOffer = true ↔ s.ctl.state ≠ .offline ∧ s.cont.offer = none ∧ s.line.rx.isFilling = false ∧
    s.line.overrun = false ∧ 6 ≤ s.line.idleCount ∧ s.noIntrusionBy s.ctl.number ∧ s.cont.silent = false := by
  simp only [State.mayOffer, Bool.and_eq_true, State.active_iff, Bool.not_eq_true', State.frameInProgress, LineUnit.inFrame, Bool.or_eq_false_iff,
    Option.isSome_eq_false_iff, Option.isNone_iff_eq_none, decide_eq_true_eq, State.freeOfOtherHold_iff]
  tauto

theorem exec_offer_of_chosen {s : State} {src : OfferSource} {f : TxFrame} (h : s.mayOffer = true) (hc : s.chooseOffer = some (src, f)) :
    exec .offer s = .next (s.beginOffer src f) := by
  refine (congrArg Host.Outcome.next (if_pos h)).trans ?_
  rw [hc]

theorem exec_offer_of_else {s : State} (h : s.mayOffer = false ∨ s.chooseOffer = none) : exec .offer s = .next s := by
  rcases h with h | h
  · exact congrArg Host.Outcome.next (if_neg (Bool.eq_false_iff.1 h))
  · refine congrArg Host.Outcome.next ?_
    rw [h]
    exact ite_self s

/-- Settles O20. -/
theorem offerBeginsTheChosenFrame : Obligations.OfferBeginsTheChosenFrame := by
  unfold Obligations.OfferBeginsTheChosenFrame
  refine ⟨fun s src f hst ho hfill hover hidle hhold hsilent hc => ?_, fun s h => exec_offer_of_else ?_⟩
  · have may : s.mayOffer = true := s.mayOffer_iff.2 ⟨hst, ho, hfill, hover, hidle, hhold, hsilent⟩
    refine ⟨_, exec_offer_of_chosen may hc, ?_, ?_, fun tag c hs hf hq => ?_, ?_⟩
    · cases src <;> rfl
    · have line : (s.beginOffer src f).line = s.line.startMark := by cases src <;> rfl
      rw [line, LineUnit.startMark, hover]
      rfl
    · subst hs
      refine (RequestUnit.find_update s.req tag tag Context.offered fun c => by cases hc : c.state <;> simp [Context.offered, hc]).trans ?_
      rw [if_pos rfl, hf]
      simp [Context.offered, hq]
    · cases src <;> exact ⟨rfl, rfl, rfl, rfl, rfl, rfl, rfl, rfl, by simp [State.beginOffer]⟩
  · by_cases hc : s.chooseOffer = none
    · exact .inr hc
    · refine .inl (Bool.eq_false_iff.2 fun may => ?_)
      obtain ⟨hst, ho, hfill, hover, hidle, hhold, hsilent⟩ := s.mayOffer_iff.1 may
      rcases h with h | h | h | h | h | h | h | h
      · exact hst h
      · exact h ho
      · rw [hfill] at h; cases h
      · rw [hover] at h; cases h
      · omega
      · exact h hhold
      · rw [hsilent] at h; cases h
      · exact hc h

end Sys2Proof.Machine
end

section
/-! Frames heard: the command and what it delivers, what every clean frame leaves, and the hold (R41, R45, R62, R80, R82, R92, R94). -/

namespace Sys2Proof

theorem wordOf_wordBytes (w : Word) : wordOf (hiByte w) (loByte w) = w := by
  apply BitVec.eq_of_getLsbD_eq
  intro i hi
  simp only [wordOf, hiByte, loByte, BitVec.getLsbD_append, BitVec.getLsbD_setWidth, BitVec.getLsbD_ushiftRight]
  by_cases h : i < 8
  · simp [h]
  · simp [h, show i - 8 < 8 by omega, show 8 + (i - 8) = i by omega]

theorem wordBytes_injective {v w : Word} (h : wordBytes v = wordBytes w) : v = w := by
  simp only [wordBytes, List.cons.injEq, and_true] at h
  rw [← wordOf_wordBytes v, ← wordOf_wordBytes w, h.1, h.2]

namespace Machine

/-! ### What a heard frame's command does -/

/-- The station agrees with a state frame: as `agreesWith`, decided. -/
def State.agrees (s : State) (f : HeardFrame) : Bool :=
  if f.kind = .join then f.bytes.take 2 == wordBytes s.port.digest else f.head.seq == s.replica.sequence

theorem State.agrees_iff (s : State) (f : HeardFrame) : s.agrees f = true ↔ s.agreesWith f := by
  unfold State.agrees State.agreesWith
  split <;> simp

/-- The answer a station drives to a frame heard (R87, R89, R90). -/
def State.heardAnswer (s : State) (f : HeardFrame) : Option AnswerSlot :=
  if f.kind.isState then answerOf s.ctl.state.applies (s.agrees f) else none

/-- What a station does with a frame heard, completed, by kind. -/
def State.delivered (s : State) (f : HeardFrame) (t : State) : State :=
  match f.kind with
  | .syncReq => t.setTrainIntent
  | .snapHead => if s.ctl.state.requesting then t.standDown.openShadow f.head.station f.bytes else t.standDown
  | .snapEntry => t.takeEntries f.head.station f.bytes
  | .snapTail => t.takeTail f.head.station (wordOf (bodyByte f.bytes 0) (bodyByte f.bytes 1))
  | _ => match stateBodyOf f.kind f.bytes with
    | some b => t.decideHeard f.head f.answers (s.agrees f) b
    | none => t

theorem State.delivered_state {f : HeardFrame} {b : StateBody} (h : stateBodyOf f.kind f.bytes = some b) (s t : State) :
    s.delivered f t = t.decideHeard f.head f.answers (s.agrees f) b := by
  obtain ⟨kind, head, bytes, answers⟩ := f
  cases kind <;> first | (cases h; rfl) | cases h

theorem State.agrees_join (s : State) (h : Head) (b : JoinBody) (a : Answers) :
    s.agrees { kind := .join, head := h, bytes := wordBytes b.digest ++ wordBytes b.nonce, answers := a } = (b.digest == s.port.digest) := by
  rw [Bool.eq_iff_iff, State.agrees_iff]
  exact ⟨fun k => beq_iff_eq.2 (wordBytes_injective k), fun k => congrArg wordBytes (beq_iff_eq.1 k)⟩

/-- Every command that is a frame heard is received, answered and delivered alike. -/
theorem exec_heard {c : Instr} {f : HeardFrame} (hc : Instr.heardFrame c = some f) (s : State) :
    exec c s = .next (s.receive f.kind f.head f.bytes f.answers (s.heardAnswer f) (s.delivered f)) := by
  cases c with
  | join origin a =>
    cases origin <;> cases hc
    rename_i h b
    have answer := congrArg (answerOf s.ctl.state.applies) (s.agrees_join h b a)
    have deliver := congrArg (fun g (t : State) => t.decideHeard h a g .join) (s.agrees_join h b a)
    exact congrArg Host.Outcome.next (congrArg₂ (s.receive .join h _ a) answer.symm deliver.symm)
  | snapTail origin a =>
    cases origin <;> cases hc
    rename_i h check
    have deliver : ∀ t : State, t.takeTail h.station (wordOf (hiByte check) (loByte check)) = t.takeTail h.station check := fun t => by
      rw [wordOf_wordBytes]
    exact congrArg Host.Outcome.next (congrArg (s.receive .snapTail h _ a _) (funext deliver).symm)
  | leave origin | heartbeat origin | reap origin | claim origin | release origin | withdraw origin | downgrade origin | syncReq origin
  | snapHead origin | snapEntry origin => cases origin <;> cases hc; rfl
  | _ => cases hc

/-! ### A clean frame -/

/-- The lease unit after a frame of x (R41, R45). -/
def State.heardLease (s : State) (x : Station) : LeaseUnit :=
  { s.lease with remaining := if x = s.ctl.number then s.lease.remaining else s.lease.remaining.set x s.leaseUs,
                 reapSet := s.lease.reapSet.dropStation x }

/-- The counts after a clean frame (R99, R101). -/
def StationController.clean (c : StationController) : StationController :=
  if c.state = .muted then { c with cleanCount := min 64 (c.cleanCount + 1) } else { c with rejectCount := 0 }

theorem StationController.clean_of_not_muted {c : StationController} (h : c.state ≠ .muted) : c.clean = { c with rejectCount := 0 } := if_neg h

@[simp] theorem StationController.clean_state (c : StationController) : c.clean.state = c.state := by unfold StationController.clean; split <;> rfl
@[simp] theorem StationController.clean_number (c : StationController) : c.clean.number = c.number := by unfold StationController.clean; split <;> rfl
@[simp] theorem StationController.clean_heardState (c : StationController) : c.clean.heardState = c.heardState := by
  unfold StationController.clean; split <;> rfl

theorem StationController.clean_eq (c : StationController) :
    c.clean = { c with rejectCount := c.clean.rejectCount, cleanCount := c.clean.cleanCount } := by
  unfold StationController.clean
  split <;> rfl

/-- The attempt counts once x has left the reap set (log entry 12). -/
def AttemptCounts.withoutReap (a : AttemptCounts) (x : Station) : AttemptCounts :=
  if a.reapTarget = some x then { a with reap := 0, reapTarget := none } else a

/-- The line after a frame heard. -/
def State.heardLine (s : State) (f : HeardFrame) : LineUnit :=
  { idleCount := 0, rx := .held { fields := heardRaw f.kind f.head f.bytes, answers := f.answers, sent := false },
    checkAcc := frameCheck (heardRaw f.kind f.head f.bytes), answer := s.heardAnswer f, overrun := false,
    dominantLeft := if s.line.rx.isFilling then s.line.dominantLeft else 0 }

/-- A station that hears a clean frame, before its delivery. -/
def State.heardFrom (s : State) (f : HeardFrame) : State :=
  { s with line := s.heardLine f, lease := s.heardLease f.head.station, ctl := s.ctl.clean,
           cont := { s.cont with offer := none, attempts := s.cont.attempts.withoutReap f.head.station } }

theorem State.canHear_iff (s : State) : s.canHear = true ↔
    s.ctl.state ≠ .offline ∧ (∀ o, s.cont.offer = some o → o.phase = .arbitrating) ∧ s.line.overrun = false := by
  unfold State.canHear State.sendingOwn
  cases s.cont.offer <;> simp [State.active_iff, and_assoc]

theorem State.loseArbitration_of_canHear {s : State} (h : s.canHear = true) : s.cont.loseArbitration = { s.cont with offer := none } := by
  obtain ⟨-, past, -⟩ := s.canHear_iff.1 h
  cases ho : s.cont.offer with
  | none => simp [ContentionUnit.loseArbitration, ContentionUnit.stopArbitration, ho]
  | some o => exact ContentionUnit.loseArbitration_arbitrating ho (past o ho)

theorem State.heardClean_eq {s : State} (h : s.canHear = true) (f : HeardFrame) :
    s.heardClean f.kind f.head f.bytes f.answers (s.heardAnswer f) = s.heardFrom f := by
  obtain ⟨-, -, noOverrun⟩ := s.canHear_iff.1 h
  have line : s.line.inFrame = s.line.rx.isFilling := by rw [LineUnit.inFrame, noOverrun, Bool.or_false]
  unfold State.heardClean State.hear State.setLease State.dropReap State.frameEnds State.countClean
  rw [State.loseArbitration_of_canHear h]
  unfold State.heardFrom State.heardLine State.heardLease StationController.clean AttemptCounts.withoutReap
  simp only [line]
  by_cases hx : f.head.station = s.ctl.number <;> by_cases hm : s.ctl.state = .muted <;> simp only [hx, hm, if_true, if_false] <;> rfl

/-- A clean frame of x, by what it leaves in the lease unit and the counts. -/
theorem State.heardCleanly_of {s t : State} {x : Station} (remaining : t.lease.remaining = (s.heardLease x).remaining)
    (reapSet : t.lease.reapSet = (s.heardLease x).reapSet) (rejects : t.ctl.rejectCount = s.ctl.clean.rejectCount)
    (cleans : t.ctl.cleanCount = s.ctl.clean.cleanCount) : s.heardCleanly t x := by
  unfold State.heardCleanly
  rw [remaining, reapSet, rejects, cleans]
  refine ⟨fun hx => ?_, fun y hy => ?_, fun y => ?_, fun hm => ?_, fun hm => ?_⟩
  · simp [State.heardLease, hx]
  · unfold State.heardLease
    by_cases hx : x = s.ctl.number
    · simp [hx]
    · have hne : x ≠ y := by
        rcases hy with h | rfl
        · exact h.symm
        · exact hx
      simpa [hx] using Vector.getElem_set_ne x.isLt y.isLt (fun hv => hne (Fin.ext hv))
  · simp [State.heardLease, StationSet.has_dropStation]
  · rw [StationController.clean_of_not_muted hm]; exact ⟨rfl, rfl⟩
  · simp [StationController.clean, hm]

/-! ### The hold around a frame -/

/-- What a frame's end does to the hold reaches flags, the sync unit and the contention unit's hold, silent, SYNC_REQ pending and counts. -/
theorem State.abandonHold_eq (s : State) (h : Station) : ∃ flags sync pending attempts, s.abandonHold h =
    { s with port := { s.port with flags := flags }, sync := sync,
             cont := { s.cont with syncReqPending := pending, attempts := attempts, hold := none, silent := false } } := by
  unfold State.abandonHold
  dsimp only
  split <;> split <;> exact ⟨_, _, _, _, rfl⟩

theorem State.followHold_eq (s : State) (x : Station) (c : Bool) : ∃ flags sync pending attempts hold silent, s.followHold x c =
    { s with port := { s.port with flags := flags }, sync := sync,
             cont := { s.cont with syncReqPending := pending, attempts := attempts, hold := hold, silent := silent } } := by
  unfold State.followHold
  cases s.cont.hold with
  | none => cases c <;> exact ⟨_, _, _, _, _, _, rfl⟩
  | some h =>
    obtain ⟨flags, sync, pending, attempts, habandon⟩ := s.abandonHold_eq h
    dsimp only
    rw [habandon]
    by_cases hx : h = x <;> cases c <;> simp only [hx, if_true, if_false] <;> exact ⟨_, _, _, _, _, _, rfl⟩

section followHold
variable (s : State) (x : Station) (c : Bool)

@[simp] theorem State.followHold_line : (s.followHold x c).line = s.line := by obtain ⟨_, _, _, _, _, _, h⟩ := s.followHold_eq x c; rw [h]
@[simp] theorem State.followHold_lease : (s.followHold x c).lease = s.lease := by obtain ⟨_, _, _, _, _, _, h⟩ := s.followHold_eq x c; rw [h]
@[simp] theorem State.followHold_req : (s.followHold x c).req = s.req := by obtain ⟨_, _, _, _, _, _, h⟩ := s.followHold_eq x c; rw [h]
@[simp] theorem State.followHold_digest : (s.followHold x c).port.digest = s.port.digest := by
  obtain ⟨_, _, _, _, _, _, h⟩ := s.followHold_eq x c; rw [h]
@[simp] theorem State.followHold_tableSize : (s.followHold x c).tableSize = s.tableSize := by
  obtain ⟨_, _, _, _, _, _, h⟩ := s.followHold_eq x c; rw [h]; rfl
@[simp] theorem State.followHold_leaseUs : (s.followHold x c).leaseUs = s.leaseUs := by
  obtain ⟨_, _, _, _, _, _, h⟩ := s.followHold_eq x c; rw [h]; rfl
@[simp] theorem State.followHold_sendList : (s.followHold x c).cont.sendList = s.cont.sendList := by
  obtain ⟨_, _, _, _, _, _, h⟩ := s.followHold_eq x c; rw [h]
@[simp] theorem State.followHold_turnUsed : (s.followHold x c).cont.turnUsed = s.cont.turnUsed := by
  obtain ⟨_, _, _, _, _, _, h⟩ := s.followHold_eq x c; rw [h]
@[simp] theorem State.followHold_leavePending : (s.followHold x c).cont.leavePending = s.cont.leavePending := by
  obtain ⟨_, _, _, _, _, _, h⟩ := s.followHold_eq x c; rw [h]
@[simp] theorem State.followHold_heartbeatDue : (s.followHold x c).cont.heartbeatDue = s.cont.heartbeatDue := by
  obtain ⟨_, _, _, _, _, _, h⟩ := s.followHold_eq x c; rw [h]
@[simp] theorem State.followHold_trainIntent : (s.followHold x c).cont.trainIntent = s.cont.trainIntent := by
  obtain ⟨_, _, _, _, _, _, h⟩ := s.followHold_eq x c; rw [h]
@[simp] theorem State.followHold_offer : (s.followHold x c).cont.offer = s.cont.offer := by
  obtain ⟨_, _, _, _, _, _, h⟩ := s.followHold_eq x c; rw [h]

end followHold

/-- The station when a frame heard has completed: clean, and the hold has followed it. -/
def State.heardHold (s : State) (f : HeardFrame) : State := (s.heardFrom f).followHold f.head.station f.head.cont

/-- A frame heard that completes, in a station that stays by its number. -/
theorem exec_heard_completed {c : Instr} {f : HeardFrame} (hc : Instr.heardFrame c = some f) {s : State} (hs : s.canHear = true)
    (hw : s.wellFormedHere f = true) (hr : f.answers.reject = false)
    (hn : f.head.station = s.ctl.number → s.ctl.state.ownNumberRule = false) : exec c s = .next (s.delivered f (s.heardHold f)) := by
  rw [exec_heard hc, State.receive_completed _ _ _ _ _ _ _ hs hw hr, State.heardClean_eq hs]
  refine congrArg Host.Outcome.next (if_neg ?_)
  rintro ⟨he, ho⟩
  rw [hn he] at ho
  cases ho

/-- A frame heard that completes under the local number, where the own-number rule acts (R129). -/
theorem exec_heard_clash {c : Instr} {f : HeardFrame} (hc : Instr.heardFrame c = some f) {s : State} (hs : s.canHear = true)
    (hw : s.wellFormedHere f = true) (hr : f.answers.reject = false) (hn : f.head.station = s.ctl.number)
    (ho : s.ctl.state.ownNumberRule = true) : exec c s = .next ((s.delivered f (s.heardHold f)).expel .refused .clash 0#16) := by
  rw [exec_heard hc, State.receive_completed _ _ _ _ _ _ _ hs hw hr, State.heardClean_eq hs]
  exact congrArg Host.Outcome.next (if_pos ⟨hn, ho⟩)

/-- A frame heard that is rejected. -/
theorem exec_heard_rejected {c : Instr} {f : HeardFrame} (hc : Instr.heardFrame c = some f) {s : State} (hs : s.canHear = true)
    (hw : s.wellFormedHere f = true) (hr : f.answers.reject = true) : exec c s = .next (s.heardFrom f) := by
  rw [exec_heard hc, State.receive_rejected _ _ _ _ _ _ _ hs hw hr, State.heardClean_eq hs]

/-- Settles O29. -/
theorem rejectedFrameIsHeardAndChangesNothingElse : Obligations.RejectedFrameIsHeardAndChangesNothingElse := by
  unfold Obligations.RejectedFrameIsHeardAndChangesNothingElse
  intro c f s hc hs hw hr
  refine ⟨_, exec_heard_rejected hc hs hw hr, State.heardCleanly_of rfl rfl rfl rfl, fun hm => ?_, rfl, rfl, rfl, rfl, rfl, fun hk ha hg => ?_,
    fun hk ha hg => ?_, fun h => ?_, rfl, ?_⟩
  · simp [State.heardFrom, StationController.clean, hm]
  · show s.heardAnswer f = _
    simp [State.heardAnswer, hk, answerOf, ha, (s.agrees_iff f).2 hg]
  · show s.heardAnswer f = _
    have disagrees : s.agrees f = false := Bool.eq_false_iff.2 fun h => hg ((s.agrees_iff f).1 h)
    simp [State.heardAnswer, hk, answerOf, ha, disagrees]
  · show s.heardAnswer f = _
    rcases h with h | h <;> simp [State.heardAnswer, answerOf, h]
  · exact congrArg (fun ctl => { s.heardFrom f with ctl := ctl }) s.ctl.clean_eq

theorem RequestUnit.complete_congr (r : RequestUnit) {f g : Context → Option Completion} (h : ∀ c : Context, c.decided f = c.decided g) :
    r.complete f = r.complete g := by
  unfold RequestUnit.complete
  simp only [h]

/-- Eviction completes every open context EVICTED (R151). -/
theorem RequestUnit.evictAll_eq (r : RequestUnit) (n : Word) :
    (r.evictAll n).contexts = r.contexts.map (fun c => if c.state = .done then c else c.done) ∧
    (r.evictAll n).queue = r.queue ++ (r.contexts.filter fun c => c.state != .done).map
      fun c => c.record { result := .evicted, tooLate := false, generation := 0#16, sequence := n } := by
  have openOnly : r.evictAll n = r.complete fun c => if (c.state != .done) = true then
      some { result := .evicted, tooLate := false, generation := 0#16, sequence := n } else none := by
    refine r.complete_congr fun c => ?_
    unfold Context.decided Context.isOpen
    split
    case isTrue h => exact (if_pos h).symm
    case isFalse => rfl
  rw [openOnly]
  obtain ⟨contexts, queue⟩ := r.complete_plain (fun c => c.state != .done) { result := .evicted, tooLate := false, generation := 0#16, sequence := n }
    (fun c h => by simpa using h)
  refine ⟨contexts.trans (List.map_congr_left fun c _ => ?_), queue⟩
  by_cases h : c.state = .done <;> simp [h]

theorem RequestUnit.evictAll_done (r : RequestUnit) (n : Word) {c : Context} (h : c ∈ (r.evictAll n).contexts) : c.state = .done := by
  rw [(r.evictAll_eq n).1] at h
  obtain ⟨d, -, rfl⟩ := List.mem_map.1 h
  split
  · assumption
  · rfl

theorem State.expel_sendList (s : State) (st : StationState) (f : EventFlag) (n : Word) : (s.expel st f n).cont.sendList = [] :=
  State.enterEnd_sendList s st

@[simp] theorem State.delivered_number (s t : State) (f : HeardFrame) : (s.delivered f t).ctl.number = t.ctl.number := by
  unfold State.delivered
  split
  case h_2 => split <;> simp
  case h_5 => split <;> simp
  all_goals simp

@[simp] theorem State.heardHold_number (s : State) (f : HeardFrame) : (s.heardHold f).ctl.number = s.ctl.number := by
  simp [State.heardHold, State.heardFrom]

/-- Settles O30. -/
theorem ownNumberFrameRefusesTheStation : Obligations.OwnNumberFrameRefusesTheStation := by
  unfold Obligations.OwnNumberFrameRefusesTheStation
  intro c f s hc ho hs hw hr hn
  exact ⟨_, exec_heard_clash hc hs hw hr hn ho, by simp, by simp, by simp, Replica.isEmptyForm_of_eq (by simp), State.expel_sendList ..,
    fun x hx => RequestUnit.evictAll_done _ _ hx, rfl, rfl⟩

end Machine
end Sys2Proof
end

section
/-! What a delivery leaves of the hold and of a train that an intrusion has ended (R80, R82, R112, R117), and the state frames that are not
applied (R93, R94, R123). -/

namespace Sys2Proof.Machine

/-! ### An apply and the contention unit -/

/-- `d` is `c` but for the send list, the current offer and the attempt counts. -/
def ContentionUnit.EntriesOnly (c d : ContentionUnit) : Prop :=
  ∃ entries offer attempts, d = { c with sendList := entries, offer := offer, attempts := attempts }

theorem ContentionUnit.EntriesOnly.refl (c : ContentionUnit) : c.EntriesOnly c := ⟨_, _, _, rfl⟩

theorem ContentionUnit.EntriesOnly.trans {c d e : ContentionUnit} (h : c.EntriesOnly d) (k : d.EntriesOnly e) : c.EntriesOnly e := by
  obtain ⟨_, _, _, rfl⟩ := h
  obtain ⟨_, _, _, rfl⟩ := k
  exact ⟨_, _, _, rfl⟩

theorem ContentionUnit.removeEntries_entriesOnly (c : ContentionUnit) (p : Byte → Bool) : c.EntriesOnly (c.removeEntries p) := ⟨_, _, _, rfl⟩

theorem State.notice_entriesOnly (s : State) (n : Word) (g : TableGrant) : s.cont.EntriesOnly (s.notice n g).cont := by
  unfold State.notice
  split
  · dsimp only
    split
    · exact ContentionUnit.removeEntries_entriesOnly ..
    · exact .refl _
  · exact .refl _

theorem State.notices_entriesOnly (s : State) (n : Word) (gs : List TableGrant) :
    s.cont.EntriesOnly (gs.foldl (fun s g => s.notice n g) s).cont :=
  State.notices_keep (P := fun t => s.cont.EntriesOnly t.cont) (fun t n g h => h.trans (t.notice_entriesOnly n g)) (.refl _) n gs

theorem State.dropReaped_entriesOnly (s : State) (b : StateBody) : s.cont.EntriesOnly (s.dropReaped b).cont := by
  cases b with
  | reap target =>
    dsimp only [State.dropReaped]
    split
    · exact ⟨_, _, _, rfl⟩
    · exact .refl _
  | claim | release | withdraw | downgrade | join | leave | heartbeat => exact .refl _

/-- An apply of another station's frame reaches the send list, the offer and the counts of the contention unit alone. -/
theorem State.applied_entriesOnly (s : State) (x : Station) (b : StateBody) : s.cont.EntriesOnly (s.applied false none x b).cont :=
  ContentionUnit.EntriesOnly.trans (State.notices_entriesOnly ({ s with replica := (s.replica.apply s.tableSize x b).replica } : State) _ _)
    (State.dropReaped_entriesOnly _ b)

@[simp] theorem State.applied_lease_remaining (s : State) (own : Bool) (tag : Option Byte) (x : Station) (b : StateBody) :
    (s.applied own tag x b).lease.remaining = s.lease.remaining := by
  have h : ∀ t : State, (if own then t.restartHeartbeat else t).lease.remaining = t.lease.remaining := by intro t; split <;> simp
  unfold State.applied
  dsimp only
  rw [State.dropReaped_lease_remaining, h, (State.notices_units ..).2.2.2.2.1]
  simp

/-- The effects by kind: the station is discarded, or at most a lease and a flag are set. -/
theorem State.afterApply_eq (s : State) (own : Bool) (before : Replica) (x : Station) (n : Word) (b : StateBody) :
    (∃ st f, (st = .evicted ∨ st = .refused) ∧ s.afterApply own before x n b = s.expel st f n) ∨
    (own = true ∧ b = .leave ∧ s.afterApply own before x n b = s.depart n) ∨
    (∃ remaining flags, s.afterApply own before x n b =
      { s with lease := { s.lease with remaining := remaining }, port := { s.port with flags := flags } }) := by
  cases b with
  | join =>
    dsimp only [State.afterApply]
    split
    · exact .inl ⟨_, _, .inr rfl, rfl⟩
    · refine .inr (.inr ?_)
      unfold State.setLease
      split <;> exact ⟨_, _, rfl⟩
  | leave =>
    cases own with
    | true => exact .inr (.inl ⟨rfl, rfl, rfl⟩)
    | false => exact .inr (.inr ⟨_, _, rfl⟩)
  | reap target =>
    dsimp only [State.afterApply]
    split
    · split
      · split
        · exact .inl ⟨_, _, .inl rfl, rfl⟩
        · exact .inr (.inr ⟨_, _, rfl⟩)
      · exact .inr (.inr ⟨_, _, rfl⟩)
    · exact .inr (.inr ⟨_, _, rfl⟩)
  | claim | release | withdraw | downgrade | heartbeat => exact .inr (.inr ⟨_, _, rfl⟩)

/-! ### The hold and the turn -/

/-- Hold, silent and turn-used stand. -/
def State.SameTurn (s t : State) : Prop :=
  t.cont.hold = s.cont.hold ∧ t.cont.silent = s.cont.silent ∧ t.cont.turnUsed = s.cont.turnUsed

theorem State.SameTurn.trans {s t u : State} (h : s.SameTurn t) (k : t.SameTurn u) : s.SameTurn u :=
  ⟨k.1.trans h.1, k.2.1.trans h.2.1, k.2.2.trans h.2.2⟩

theorem State.applied_sameTurn (s : State) (own : Bool) (tag : Option Byte) (x : Station) (b : StateBody) : s.SameTurn (s.applied own tag x b) := by
  have outcome : ∀ (u : State) (a : Applied), u.SameTurn (u.outcomeTaken tag a) := fun u a => by
    unfold State.outcomeTaken
    split
    · simp [State.SameTurn]
    · exact ⟨rfl, rfl, rfl⟩
  have notices : ∀ (u : State) (n : Word) (gs : List TableGrant), u.SameTurn (gs.foldl (fun s g => s.notice n g) u) := fun u n gs => by
    obtain ⟨_, _, _, h⟩ := u.notices_entriesOnly n gs
    unfold State.SameTurn
    rw [h]
    exact ⟨rfl, rfl, rfl⟩
  have heartbeat : ∀ u : State, u.SameTurn (if own then u.restartHeartbeat else u) := fun u => by
    split
    · simp [State.SameTurn]
    · exact ⟨rfl, rfl, rfl⟩
  have dropped : ∀ u : State, u.SameTurn (u.dropReaped b) := fun u => by simp [State.SameTurn]
  exact (((outcome ({ s with replica := (s.replica.apply s.tableSize x b).replica } : State) _).trans (notices _ _ _)).trans (heartbeat _)).trans
    (dropped _)

theorem State.afterApply_sameTurn (s : State) (own : Bool) (before : Replica) (x : Station) (n : Word) (b : StateBody) :
    s.SameTurn (s.afterApply own before x n b) := by
  simp [State.SameTurn]

theorem State.applyFrame_sameTurn (s : State) (own : Bool) (tag : Option Byte) (x : Station) (b : StateBody) :
    s.SameTurn (s.applyFrame own tag x b) := by
  rw [State.applyFrame_eq_applied]
  split
  · exact (s.applied_sameTurn own tag x b).trans (State.afterApply_sameTurn ..)
  · exact s.applied_sameTurn own tag x b

theorem State.decideHeard_sameTurn (s : State) (h : Head) (a : Answers) (agrees : Bool) (b : StateBody) : s.SameTurn (s.decideHeard h a agrees b) := by
  unfold State.decideHeard
  split
  · split
    · exact s.applyFrame_sameTurn ..
    · split
      · simp [State.SameTurn]
      · exact ⟨rfl, rfl, rfl⟩
  · split <;> exact ⟨rfl, rfl, rfl⟩

theorem State.openShadow_sameTurn (s : State) (x : Station) (body : List Byte) : s.SameTurn (s.openShadow x body) := by
  unfold State.openShadow
  dsimp only
  split
  · exact ⟨rfl, rfl, rfl⟩
  · split
    · exact ⟨rfl, rfl, rfl⟩
    · split <;> exact ⟨rfl, rfl, rfl⟩

theorem State.delivered_sameTurn (s t : State) (f : HeardFrame) : t.SameTurn (s.delivered f t) := by
  unfold State.delivered
  split
  case h_1 => simp [State.SameTurn]
  case h_2 =>
    have down : t.SameTurn t.standDown := by simp [State.SameTurn]
    split
    · exact down.trans (State.openShadow_sameTurn ..)
    · exact down
  case h_3 => simp [State.SameTurn]
  case h_4 => simp [State.SameTurn]
  case h_5 =>
    split
    · exact t.decideHeard_sameTurn ..
    · exact ⟨rfl, rfl, rfl⟩

theorem State.holdFollows_of_sameTurn {s t u : State} {x : Station} {c : Bool} (h : s.holdFollows t x c) (k : t.SameTurn u) : s.holdFollows u x c := by
  unfold State.holdFollows at *
  rwa [k.1, k.2.1]

theorem State.heardHold_follows (s : State) (f : HeardFrame) : s.holdFollows (s.heardHold f) f.head.station f.head.cont :=
  (s.heardFrom f).followHold_follows f.head.station f.head.cont

theorem State.delivered_holdFollows (s : State) (f : HeardFrame) : s.holdFollows (s.delivered f (s.heardHold f)) f.head.station f.head.cont :=
  State.holdFollows_of_sameTurn (s.heardHold_follows f) (s.delivered_sameTurn _ f)

/-! ### An intrusion -/

/-- The station serves no train. -/
def State.TrainOver (s : State) : Prop :=
  s.sync.phase ≠ .entries ∧ s.sync.phase ≠ .tail ∧ s.sync.cursor = 0 ∧ s.sync.sendCheck = 0xFFFF#16

/-- The shadow of an abandoned train has been discarded. -/
def State.ShadowLost (s : State) : Prop :=
  s.port.flag .trainLost = true ∧ s.sync.shadow = none ∧ s.cont.syncReqPending = true

theorem State.endTrain_trainOver (s : State) : s.endTrain.TrainOver := by
  unfold State.TrainOver State.endTrain
  dsimp only
  refine ⟨?_, ?_, rfl, rfl⟩ <;> split <;> nofun

theorem State.abandonHold_trainOver {s : State} (h : s.serving = true) (x : Station) : (s.abandonHold x).TrainOver := by
  unfold State.abandonHold
  dsimp only
  rw [if_pos]
  · exact State.endTrain_trainOver _
  · split <;> exact h

theorem State.abandonHold_shadowLost {s : State} {sh : Shadow} (h : s.sync.shadow = some sh) : (s.abandonHold sh.source).ShadowLost := by
  have lost : ({ s with cont := { s.cont with hold := none, silent := false } } : State).sync.shadow.any (fun u => u.source == sh.source) = true := by
    simp [h]
  unfold State.abandonHold
  dsimp only
  rw [if_pos lost]
  split
  · exact ⟨by simp [State.endTrain], rfl, rfl⟩
  · exact ⟨by simp, rfl, rfl⟩

theorem State.followHold_of_intruder {s : State} {h x : Station} (hh : s.cont.hold = some h) (hx : h ≠ x) (c : Bool) :
    ∃ hold, s.followHold x c = { s.abandonHold h with cont := { (s.abandonHold h).cont with hold := hold } } := by
  unfold State.followHold
  rw [hh]
  dsimp only
  rw [if_neg hx]
  cases c <;> exact ⟨_, rfl⟩

theorem State.heardHold_trainOver {s : State} {f : HeardFrame} {h : Station} (hh : s.cont.hold = some h) (hx : h ≠ f.head.station)
    (hs : s.serving = true) : (s.heardHold f).TrainOver := by
  obtain ⟨hold, eq⟩ := State.followHold_of_intruder (s := s.heardFrom f) hh hx f.head.cont
  rw [State.heardHold, eq]
  exact State.abandonHold_trainOver (s := s.heardFrom f) hs h

theorem State.heardHold_shadowLost {s : State} {f : HeardFrame} {sh : Shadow} (hsh : s.sync.shadow = some sh)
    (hh : s.cont.hold = some sh.source) (hx : sh.source ≠ f.head.station) : (s.heardHold f).ShadowLost := by
  obtain ⟨hold, eq⟩ := State.followHold_of_intruder (s := s.heardFrom f) hh hx f.head.cont
  rw [State.heardHold, eq]
  exact State.abandonHold_shadowLost (s := s.heardFrom f) hsh

theorem State.expel_trainOver (s : State) (st : StationState) (f : EventFlag) (n : Word) : (s.expel st f n).TrainOver := ⟨nofun, nofun, rfl, rfl⟩

theorem State.TrainOver.of_sync {s t : State} (h : s.TrainOver) (k : t.sync = s.sync) : t.TrainOver := by
  unfold State.TrainOver at *
  rwa [k]

theorem State.applyFrame_sync_or_expelled (s : State) (x : Station) (b : StateBody) :
    (∃ u st f n, (st = .evicted ∨ st = .refused) ∧ u.port = s.port ∧ s.applyFrame false none x b = State.expel u st f n) ∨
    ((s.applyFrame false none x b).sync = s.sync ∧ (s.applyFrame false none x b).cont.syncReqPending = s.cont.syncReqPending) := by
  have applied : (s.applied false none x b).cont.syncReqPending = s.cont.syncReqPending := by
    obtain ⟨_, _, _, h⟩ := s.applied_entriesOnly x b
    rw [h]
  rw [State.applyFrame_eq_applied]
  split
  · rcases State.afterApply_eq (s.applied false none x b) false s.replica x (s.replica.apply s.tableSize x b).replica.sequence b with
      ⟨st, f, hst, h⟩ | ⟨h, -, -⟩ | ⟨remaining, flags, h⟩
    · exact .inl ⟨_, st, f, _, hst, by simp, h⟩
    · cases h
    · rw [h]; exact .inr ⟨by simp, applied⟩
  · exact .inr ⟨by simp, applied⟩

theorem State.decideHeard_trainOver {t : State} (h : t.TrainOver) (hd : Head) (a : Answers) (agrees : Bool) (b : StateBody) :
    (t.decideHeard hd a agrees b).TrainOver := by
  unfold State.decideHeard
  split
  · split
    · rcases t.applyFrame_sync_or_expelled hd.station b with ⟨u, st, f, n, -, -, eq⟩ | ⟨sync, -⟩
      · rw [eq]; exact State.expel_trainOver ..
      · exact h.of_sync sync
    · split
      · unfold State.loseStep
        dsimp only
        split <;> exact ⟨nofun, nofun, rfl, rfl⟩
      · exact h
  · split
    · exact h.of_sync rfl
    · exact h

theorem State.openShadow_trainOver {t : State} (h : t.TrainOver) (x : Station) (body : List Byte) : (t.openShadow x body).TrainOver := by
  unfold State.openShadow
  dsimp only
  split
  · exact h
  · split
    · exact State.expel_trainOver ..
    · split <;> exact h

theorem State.delivered_trainOver {t : State} (h : t.TrainOver) (s : State) (f : HeardFrame) : (s.delivered f t).TrainOver := by
  obtain ⟨entries, tail, cursor, check⟩ := h
  have down : t.standDown.TrainOver := by
    unfold State.standDown
    refine ⟨?_, ?_, cursor, check⟩ <;> dsimp only <;> split <;> first | (simp; done) | assumption
  unfold State.delivered
  split
  case h_1 =>
    unfold State.setTrainIntent
    split
    · refine ⟨?_, ?_, cursor, check⟩ <;> dsimp only <;> split <;> first | (simp; done) | assumption
    · exact ⟨entries, tail, cursor, check⟩
  case h_2 =>
    split
    · exact State.openShadow_trainOver down ..
    · exact down
  case h_3 => exact ⟨by simpa using entries, by simpa using tail, by simpa using cursor, by simpa using check⟩
  case h_4 =>
    unfold State.takeTail
    split
    · exact ⟨entries, tail, cursor, check⟩
    · split
      · exact ⟨entries, tail, cursor, check⟩
      · split
        · unfold State.settleShadow
          split
          · exact ⟨entries, tail, cursor, check⟩
          · exact State.expel_trainOver ..
        · exact ⟨entries, tail, cursor, check⟩
  case h_5 =>
    split
    · exact State.decideHeard_trainOver ⟨entries, tail, cursor, check⟩ ..
    · exact ⟨entries, tail, cursor, check⟩

/-- The shadow after an intrusion by a frame: lost, unless the frame is a SNAP_HEAD, which may open its own, or discards the station. -/
def State.ShadowAfter (t : State) (f : HeardFrame) : Prop :=
  t.port.flag .trainLost = true ∧ (∀ u : Shadow, t.sync.shadow = some u → u.source = f.head.station ∧ f.kind = .snapHead) ∧
  (f.kind ≠ .snapHead → t.ctl.state.ended = false → t.cont.syncReqPending = true)

theorem State.ShadowLost.after {t : State} (h : t.ShadowLost) (f : HeardFrame) : t.ShadowAfter f :=
  ⟨h.1, fun u hu => (by rw [h.2.1] at hu; cases hu), fun _ _ => h.2.2⟩

theorem State.expel_shadowAfter {t : State} (h : t.port.flag .trainLost = true) {st : StationState} (hst : st = .evicted ∨ st = .refused)
    (g : EventFlag) (n : Word) (f : HeardFrame) : (t.expel st g n).ShadowAfter f :=
  ⟨(State.expel_settings t st g n).flags _ h, fun u hu => (by cases hu), fun _ he => by rcases hst with rfl | rfl <;> cases he⟩

theorem State.decideHeard_shadowAfter {t : State} (h : t.ShadowLost) (hd : Head) (a : Answers) (agrees : Bool) (b : StateBody) (f : HeardFrame) :
    (t.decideHeard hd a agrees b).ShadowAfter f := by
  obtain ⟨lost, shadow, pending⟩ := h
  unfold State.decideHeard
  split
  · split
    · rcases t.applyFrame_sync_or_expelled hd.station b with ⟨u, st, g, n, hst, hp, eq⟩ | ⟨sync, req⟩
      · rw [eq]; exact State.expel_shadowAfter (by rw [hp]; exact lost) hst ..
      · refine State.ShadowLost.after ⟨(t.applyFrame_settings false none hd.station b).flags _ lost, by rw [sync]; exact shadow, req.trans pending⟩ f
    · split
      · refine State.ShadowLost.after ⟨?_, by simpa using shadow, by simp⟩ f
        unfold State.loseStep
        dsimp only
        split
        · exact lost
        · rw [State.flag_raise]; simp [State.leaveMember, lost]
      · exact State.ShadowLost.after ⟨lost, shadow, pending⟩ f
  · split <;> exact State.ShadowLost.after ⟨lost, shadow, pending⟩ f

theorem State.openShadow_shadowAfter {t : State} (h : t.port.flag .trainLost = true) {f : HeardFrame} (hf : f.kind = .snapHead) (body : List Byte) :
    (t.openShadow f.head.station body).ShadowAfter f := by
  unfold State.openShadow
  dsimp only
  split
  · exact ⟨h, by simp, fun hk => absurd hf hk⟩
  · split
    · exact State.expel_shadowAfter (by exact h) (.inr rfl) ..
    · split
      · exact ⟨h, by simp, fun hk => absurd hf hk⟩
      · exact ⟨h, fun u hu => (by cases hu; exact ⟨rfl, hf⟩), fun hk => absurd hf hk⟩

theorem State.delivered_shadowAfter {t : State} (h : t.ShadowLost) (s : State) (f : HeardFrame) : (s.delivered f t).ShadowAfter f := by
  obtain ⟨lost, shadow, pending⟩ := h
  unfold State.delivered
  split
  case h_1 => exact State.ShadowLost.after ⟨by simpa using lost, by simpa using shadow, by simpa using pending⟩ f
  case h_2 hk =>
    split
    · exact State.openShadow_shadowAfter (by simpa using lost) hk _
    · exact State.ShadowLost.after ⟨by simpa using lost, by simpa using shadow, by simpa using pending⟩ f
  case h_3 => rw [State.takeEntries, shadow]; exact State.ShadowLost.after ⟨lost, shadow, pending⟩ f
  case h_4 => rw [State.takeTail, shadow]; exact State.ShadowLost.after ⟨lost, shadow, pending⟩ f
  case h_5 =>
    split
    · exact State.decideHeard_shadowAfter ⟨lost, shadow, pending⟩ ..
    · exact State.ShadowLost.after ⟨lost, shadow, pending⟩ f

theorem State.serving_iff (s : State) : s.serving = true ↔ s.sync.phase = .entries ∨ s.sync.phase = .tail := by simp [State.serving]

theorem State.intrusionEnds_of {s t : State} {f : HeardFrame} (train : (s.heardHold f).TrainOver → t.TrainOver)
    (shadow : (s.heardHold f).ShadowLost → t.ShadowAfter f) : s.intrusionEnds t f := by
  refine fun h hh hx => ⟨fun sh hsh hsrc => ?_, fun hserving => train (State.heardHold_trainOver hh hx (s.serving_iff.2 hserving))⟩
  subst hsrc
  exact shadow (State.heardHold_shadowLost hsh hh hx)

theorem State.delivered_intrusionEnds (s : State) (f : HeardFrame) : s.intrusionEnds (s.delivered f (s.heardHold f)) f :=
  State.intrusionEnds_of (fun h => State.delivered_trainOver h s f) fun h => State.delivered_shadowAfter h s f

/-- What any frame heard that completes does to the hold. -/
theorem exec_heard_hold {c : Instr} {f : HeardFrame} (hc : Instr.heardFrame c = some f) {s : State} (hs : s.canHear = true)
    (hw : s.wellFormedHere f = true) (hr : f.answers.reject = false) :
    ∃ t, exec c s = .next t ∧ s.holdFollows t f.head.station f.head.cont ∧ s.intrusionEnds t f := by
  by_cases hn : f.head.station = s.ctl.number ∧ s.ctl.state.ownNumberRule = true
  · exact ⟨_, exec_heard_clash hc hs hw hr hn.1 hn.2, State.holdFollows_of_sameTurn (s.delivered_holdFollows f) ⟨rfl, rfl, rfl⟩,
      State.intrusionEnds_of (fun _ => State.expel_trainOver ..)
        fun h => State.expel_shadowAfter (State.delivered_shadowAfter h s f).1 (.inr rfl) ..⟩
  · exact ⟨_, exec_heard_completed hc hs hw hr fun he => Bool.eq_false_iff.2 fun ho => hn ⟨he, ho⟩, s.delivered_holdFollows f, s.delivered_intrusionEnds f⟩

end Sys2Proof.Machine
end

section
/-! State frames that are not applied, SYNC_REQ, and the hold's own statement (R79, R80, R82, R93, R94, R104 to R106, R123). -/

namespace Sys2Proof.Machine

section heardHold
variable (s : State) (f : HeardFrame)

@[simp] theorem State.heardHold_line : (s.heardHold f).line = s.heardLine f := by simp [State.heardHold, State.heardFrom]
@[simp] theorem State.heardHold_lease : (s.heardHold f).lease = s.heardLease f.head.station := by simp [State.heardHold, State.heardFrom]
@[simp] theorem State.heardHold_ctl : (s.heardHold f).ctl = s.ctl.clean := by simp [State.heardHold, State.heardFrom]
@[simp] theorem State.heardHold_replica : (s.heardHold f).replica = s.replica := by simp [State.heardHold, State.heardFrom]
@[simp] theorem State.heardHold_req : (s.heardHold f).req = s.req := by simp [State.heardHold, State.heardFrom]
@[simp] theorem State.heardHold_tableSize : (s.heardHold f).tableSize = s.tableSize := by simp [State.heardHold, State.heardFrom]; rfl
@[simp] theorem State.heardHold_leaseUs : (s.heardHold f).leaseUs = s.leaseUs := by simp [State.heardHold, State.heardFrom]; rfl
@[simp] theorem State.heardHold_digest : (s.heardHold f).port.digest = s.port.digest := by simp [State.heardHold, State.heardFrom]
@[simp] theorem State.heardHold_sendList : (s.heardHold f).cont.sendList = s.cont.sendList := by simp [State.heardHold, State.heardFrom]
@[simp] theorem State.heardHold_turnUsed : (s.heardHold f).cont.turnUsed = s.cont.turnUsed := by simp [State.heardHold, State.heardFrom]
@[simp] theorem State.heardHold_leavePending : (s.heardHold f).cont.leavePending = s.cont.leavePending := by simp [State.heardHold, State.heardFrom]
@[simp] theorem State.heardHold_heartbeatDue : (s.heardHold f).cont.heartbeatDue = s.cont.heartbeatDue := by simp [State.heardHold, State.heardFrom]
@[simp] theorem State.heardHold_trainIntent : (s.heardHold f).cont.trainIntent = s.cont.trainIntent := by simp [State.heardHold, State.heardFrom]
@[simp] theorem State.heardHold_offer : (s.heardHold f).cont.offer = none := by simp [State.heardHold, State.heardFrom]

end heardHold

/-- A frame that is no intrusion leaves port, sync unit and SYNC_REQ pending. -/
theorem State.heardHold_of_noIntrusion {s : State} {f : HeardFrame} (h : s.noIntrusionBy f.head.station) :
    (s.heardHold f).port = s.port ∧ (s.heardHold f).sync = s.sync ∧ (s.heardHold f).cont.syncReqPending = s.cont.syncReqPending := by
  have quiet := (s.heardFrom f).followHold_quiet f.head.station f.head.cont h
  rw [State.heardHold, quiet]
  exact ⟨rfl, rfl, rfl⟩

theorem StationState.not_muted_of_applies {st : StationState} (h : st.applies = true) : st ≠ .muted := by rintro rfl; cases h

/-- Settles O28. -/
theorem stationOutOfStepAppliesNoStateFrame : Obligations.StationOutOfStepAppliesNoStateFrame := by
  unfold Obligations.StationOutOfStepAppliesNoStateFrame
  intro c f b s hc hb ha hs hw hr hn
  have answer : s.heardAnswer f = none := by
    unfold State.heardAnswer answerOf
    rw [ha]
    split <;> rfl
  refine ⟨_, exec_heard_completed hc hs hw hr hn, ?_⟩
  rw [State.delivered_state hb, State.decideHeard, State.heardHold_ctl, StationController.clean_state, if_neg (by rw [ha]; decide)]
  by_cases hl : s.ctl.state = .listening ∨ s.ctl.state = .joining
  · rw [if_pos hl]
    refine ⟨by simp, by simp, by simpa [State.heardLine] using answer, by simp, State.heardCleanly_of (by simp) (by simp) (by simp) (by simp),
      fun _ => rfl, fun h1 h2 => ?_⟩
    rcases hl with h | h
    · exact absurd h h1
    · exact absurd h h2
  · rw [if_neg hl]
    exact ⟨by simp, by simp, by simpa [State.heardLine] using answer, by simp, State.heardCleanly_of (by simp) (by simp) (by simp) (by simp),
      fun h => absurd h hl, fun _ _ => by simp⟩

/-- Loss of step, where it sets its flag. -/
theorem State.loseStep_flag (s : State) : (s.loseStep false).port.flag .lostStep = true := by
  simp [State.loseStep]

theorem State.loseStep_member (s : State) (q : Bool) : (s.loseStep q).cont.leavePending = false ∧ (s.loseStep q).cont.heartbeatDue = false ∧
    (s.loseStep q).cont.trainIntent = false ∧ (s.loseStep q).lease = .reset := by
  cases q <;> exact ⟨rfl, rfl, rfl, rfl⟩

/-- Settles O27. -/
theorem disagreeingReceiverLosesStepOrDisregards : Obligations.DisagreeingReceiverLosesStepOrDisregards := by
  unfold Obligations.DisagreeingReceiverLosesStepOrDisregards
  intro c f b s hc hb ha hs hw hr hg hn
  have disagrees : s.agrees f = false := Bool.eq_false_iff.2 fun h => hg ((s.agrees_iff f).1 h)
  have isState : f.kind.isState = true := by
    cases hk : f.kind <;> first | rfl | (rw [hk] at hb; cases hb)
  have answer : s.heardAnswer f = some .disagree := by simp [State.heardAnswer, isState, answerOf, ha, disagrees]
  have notHere : (f.head.station == s.ctl.number) = false := beq_eq_false_iff_ne.2 hn
  refine ⟨_, exec_heard_completed hc hs hw hr fun h => absurd h hn, ?_, ?_, ?_, s.delivered_holdFollows f, s.delivered_intrusionEnds f,
    fun hag => ?_, fun hag => ?_⟩
  all_goals
    rw [State.delivered_state hb, State.decideHeard, State.heardHold_ctl, StationController.clean_state, ha, disagrees, if_pos rfl,
      if_neg (by decide)]
  · split <;> simpa [State.heardLine] using answer
  · split <;> simp
  · split <;> simp
  · obtain ⟨leave, heartbeat, intent, lease⟩ := State.loseStep_member (s.heardHold f) false
    rw [if_pos hag, StationController.clean_number, notHere]
    refine ⟨by simp, by simp, State.loseStep_flag _, by simp, leave, heartbeat, intent, fun x => ?_, by rw [lease]; rfl, by rw [lease]; rfl⟩
    rw [lease]
    simp [LeaseUnit.reset]
  · rw [hag, if_neg (by decide)]
    refine ⟨?_, by simp, State.heardCleanly_of (by simp) (by simp) (by simp) (by simp), fun h => (State.heardHold_of_noIntrusion h).1⟩
    rw [State.heardHold_ctl, StationController.clean_of_not_muted (StationState.not_muted_of_applies ha)]

/-! ### The station's own frame -/

/-- Every command that is an own frame past arbitration ends it, by its kind's completion. -/
def completesBy : FrameKind → Answers → OfferSource → TxFrame → State → State
  | .join, a, src, _, t => (t.endSource src).readJoin a
  | .syncReq, _, src, _, t => (t.endSource src).startRetry.setTrainIntent
  | .snapHead, _, src, f, t => ((t.endSource src).beginServing f.body).restartHeartbeatTimer
  | .snapEntry, _, src, f, t => ((t.endSource src).advanceCursor f.body).restartHeartbeatTimer
  | .snapTail, _, src, _, t => (t.endSource src).finishTrain.restartHeartbeatTimer
  | k, a, src, f, t => t.decideOwn a src ((stateBodyOf k f.body).getD .heartbeat)

theorem exec_ownFrame {c : Instr} {k : FrameKind} {a : Answers} (hc : Instr.ownFrame c = some (k, a)) (s : State) :
    exec c s = .next (s.ownFrameEnds k a (completesBy k a)) := by
  cases c with
  | join origin | leave origin | heartbeat origin | reap origin | claim origin | release origin | withdraw origin | downgrade origin
  | syncReq origin | snapHead origin | snapEntry origin | snapTail origin => cases origin <;> cases hc; rfl
  | _ => cases hc

/-- The station when its own frame has run to its last answer slot. -/
def State.sent (s : State) (src : OfferSource) (f : TxFrame) (a : Answers) : State :=
  { s with line := { idleCount := 0, rx := .held { fields := f.raw s.ctl.number, answers := a, sent := true },
                     checkAcc := frameCheck (f.raw s.ctl.number), answer := none, overrun := false,
                     dominantLeft := if s.line.inFrame then s.line.dominantLeft else 0 },
           cont := { s.cont with turnUsed := s.cont.turnUsed || decide (2 ≤ f.kind.cls.toNat),
                                 offer := some { source := src, frame := f, phase := .answering } } }

/-- The station when its own frame has completed: the hold has followed it and the offer is over. -/
def State.sentHold (s : State) (src : OfferSource) (f : TxFrame) (a : Answers) : State :=
  ((s.sent src f a).followHold s.ctl.number f.cont).clearOffer

theorem exec_ownFrame_rejected {c : Instr} {k : FrameKind} {a : Answers} (hc : Instr.ownFrame c = some (k, a)) {s : State} {src : OfferSource}
    {f : TxFrame} (h : s.sendsKind k src f) (hr : a.reject = true) : exec c s = .next (((s.sent src f a).failAttempt src).clearOffer) := by
  obtain ⟨ho, rfl⟩ := h
  rw [exec_ownFrame hc, State.ownFrameEnds_sending s _ a _ ho (by simp), if_pos hr]
  rfl

theorem exec_ownFrame_completed {c : Instr} {k : FrameKind} {a : Answers} (hc : Instr.ownFrame c = some (k, a)) {s : State} {src : OfferSource}
    {f : TxFrame} (h : s.sendsKind k src f) (hr : a.reject = false) : exec c s = .next (completesBy k a src f (s.sentHold src f a)) := by
  obtain ⟨ho, rfl⟩ := h
  rw [exec_ownFrame hc, State.ownFrameEnds_sending s _ a _ ho (by simp), if_neg (by rw [hr]; decide)]
  rfl

section sentHold
variable (s : State) (src : OfferSource) (f : TxFrame) (a : Answers)

@[simp] theorem State.sentHold_line : (s.sentHold src f a).line = (s.sent src f a).line := by simp [State.sentHold]
@[simp] theorem State.sentHold_lease : (s.sentHold src f a).lease = s.lease := by simp [State.sentHold, State.sent]
@[simp] theorem State.sentHold_ctl : (s.sentHold src f a).ctl = s.ctl := by simp [State.sentHold, State.sent]
@[simp] theorem State.sentHold_replica : (s.sentHold src f a).replica = s.replica := by simp [State.sentHold, State.sent]
@[simp] theorem State.sentHold_req : (s.sentHold src f a).req = s.req := by simp [State.sentHold, State.sent]
@[simp] theorem State.sentHold_tableSize : (s.sentHold src f a).tableSize = s.tableSize := State.followHold_tableSize (s.sent src f a) ..
@[simp] theorem State.sentHold_leaseUs : (s.sentHold src f a).leaseUs = s.leaseUs := State.followHold_leaseUs (s.sent src f a) ..
@[simp] theorem State.sentHold_sendList : (s.sentHold src f a).cont.sendList = s.cont.sendList := by simp [State.sentHold, State.sent]
@[simp] theorem State.sentHold_turnUsed : (s.sentHold src f a).cont.turnUsed = (s.cont.turnUsed || decide (2 ≤ f.kind.cls.toNat)) := by
  simp [State.sentHold, State.sent]
@[simp] theorem State.sentHold_leavePending : (s.sentHold src f a).cont.leavePending = s.cont.leavePending := by simp [State.sentHold, State.sent]
@[simp] theorem State.sentHold_trainIntent : (s.sentHold src f a).cont.trainIntent = s.cont.trainIntent := by simp [State.sentHold, State.sent]
@[simp] theorem State.sentHold_heartbeatDue : (s.sentHold src f a).cont.heartbeatDue = s.cont.heartbeatDue := by simp [State.sentHold, State.sent]
@[simp] theorem State.sentHold_offer : (s.sentHold src f a).cont.offer = none := rfl

end sentHold

theorem State.sentHold_of_noIntrusion {s : State} (h : s.noIntrusionBy s.ctl.number) (src : OfferSource) (f : TxFrame) (a : Answers) :
    (s.sentHold src f a).port = s.port ∧ (s.sentHold src f a).sync = s.sync ∧
    (s.sentHold src f a).cont.silent = (if s.cont.hold = some s.ctl.number ∧ f.cont = false then false else s.cont.silent) := by
  have quiet := (s.sent src f a).followHold_quiet s.ctl.number f.cont h
  rw [State.sentHold, quiet]
  exact ⟨rfl, rfl, rfl⟩

theorem State.sentHold_follows (s : State) (src : OfferSource) (f : TxFrame) (a : Answers) : s.holdFollows (s.sentHold src f a) s.ctl.number f.cont :=
  (s.sent src f a).followHold_follows s.ctl.number f.cont

theorem State.sentHold_hold (s : State) (src : OfferSource) (f : TxFrame) (a : Answers) :
    (s.sentHold src f a).cont.hold = if f.cont then some s.ctl.number else none := (s.sentHold_follows src f a).1

/-- Without a train there is none to end (R112). -/
theorem State.followHold_phase_none {s : State} (h : s.sync.phase = .none) (x : Station) (c : Bool) : (s.followHold x c).sync.phase = .none := by
  have abandoned : ∀ y, (s.abandonHold y).sync.phase = .none := fun y => by
    unfold State.abandonHold
    dsimp only
    rw [if_neg]
    · split <;> exact h
    · split <;> simp [State.serving, State.dropShadow, h]
  unfold State.followHold
  cases s.cont.hold with
  | none => cases c <;> exact h
  | some y =>
    by_cases hy : y = x
    · cases c <;> simpa [hy] using h
    · cases c <;> simpa [hy] using abandoned y

theorem State.setTrainIntent_of_inStep {s : State} (h : s.ctl.state = .inStep) :
    s.setTrainIntent.cont.trainIntent = true ∧ (s.sync.phase = .none → s.setTrainIntent.sync.phase = .head) := by
  unfold State.setTrainIntent
  rw [if_pos h]
  exact ⟨rfl, fun hp => if_pos hp⟩

theorem State.setTrainIntent_of_else {s : State} (h : s.ctl.state ≠ .inStep) : s.setTrainIntent = s := if_neg h

/-- Settles O41. -/
theorem syncReqSetsTrainIntent : Obligations.SyncReqSetsTrainIntent := by
  unfold Obligations.SyncReqSetsTrainIntent
  refine ⟨fun h a s hs hr hn => ?_, fun a s f h hst hr => ⟨_, exec_ownFrame_completed (c := .syncReq .own a) rfl h hr, ?_⟩⟩
  · let f : HeardFrame := { kind := .syncReq, head := h, bytes := [], answers := a }
    have run := exec_heard_completed (c := .syncReq (.heard h ()) a) (f := f) rfl hs rfl hr fun he => absurd he hn
    have delivers : s.delivered f (s.heardHold f) = (s.heardHold f).setTrainIntent := rfl
    refine ⟨_, run, by simp [delivers], by simp [delivers], by simp [delivers],
      State.heardCleanly_of (by simp [delivers]; rfl) (by simp [delivers]; rfl) (by simp [delivers]) (by simp [delivers]),
      s.delivered_holdFollows f, fun hi => ?_, fun hi => ?_⟩
    · obtain ⟨intent, head⟩ := State.setTrainIntent_of_inStep (s := s.heardHold f) (by simpa using hi)
      exact ⟨intent, fun hp => head (State.followHold_phase_none (s := s.heardFrom f) hp ..)⟩
    · rw [delivers, State.setTrainIntent_of_else (by simpa using hi)]
      exact s.heardHold_trainIntent f
  · have notInStep : s.ctl.state ≠ .inStep := by rcases hst with h | h <;> simp [h]
    have completes : completesBy .syncReq a .syncReq f (s.sentHold .syncReq f a) = ((s.sentHold .syncReq f a).endSource .syncReq).startRetry :=
      State.setTrainIntent_of_else (by simpa using notInStep)
    rw [completes]
    exact ⟨rfl, congrArg (fun us => Timer.running (us / 2)) (s.sentHold_leaseUs ..), rfl, by simp, by simp, by simp⟩

/-! ### Rounds and holds -/

theorem exec_roundEnd (s : State) : exec .roundEnd s = .next
    (if s.active && s.lineIdle then
      { s with line := s.line.idleAt (max s.line.idleCount 12), cont := { s.cont with turnUsed := false } } else s) := rfl

theorem exec_holdTimeout_of_hold {s : State} {h : Station} (hh : s.cont.hold = some h) :
    exec .holdTimeout s = .next (if s.active && s.lineIdle then (s.idleTo 40).abandonHold h else s) := by
  simp only [exec, execHoldTimeout, hh]
  rfl

theorem exec_holdTimeout_of_none {s : State} (hh : s.cont.hold = none) : exec .holdTimeout s = .next s := by
  simp only [exec, execHoldTimeout, hh]

/-- In a frame, and while a fault holds the line dominant, no idle event comes. -/
theorem exec_idle_events_of_busy {s : State} (h : s.frameInProgress = true ∨ 0 < s.line.dominantLeft) :
    exec .roundEnd s = .next s ∧ exec .holdTimeout s = .next s := by
  have busy : s.lineIdle = false := s.lineIdle_eq_false_iff.2 h
  constructor
  · rw [exec_roundEnd, busy, Bool.and_false]; rfl
  · cases hh : s.cont.hold with
    | none => exact exec_holdTimeout_of_none hh
    | some h => rw [exec_holdTimeout_of_hold hh, busy, Bool.and_false]; rfl

theorem LineUnit.idleAt_of_ge {l : LineUnit} {n : Nat} (hn : 6 ≤ n) (hf : l.rx.isFilling = false) :
    l.idleAt n = { l with idleCount := n, rx := .empty } := by
  have start : Config.startGap ≤ n := hn
  unfold LineUnit.idleAt
  cases hr : l.rx with
  | empty => simp [RxBuffer.isHeld]
  | held f => simp [RxBuffer.isHeld, start]
  | filling f => rw [hr] at hf; cases hf

theorem State.filling_of_frameInProgress {s : State} (h : s.frameInProgress = false) : s.line.rx.isFilling = false := by
  simp only [State.frameInProgress, LineUnit.inFrame, Bool.or_eq_false_iff] at h
  exact h.2.1

/-- A hold that ends abandoned, where no shadow is of the holder. -/
theorem State.abandonHold_other_shadow {s : State} {h : Station} (hs : ∀ sh, s.sync.shadow = some sh → sh.source ≠ h) :
    (s.abandonHold h).sync.shadow = s.sync.shadow ∧ (s.abandonHold h).port = s.port := by
  have other : ¬ s.sync.shadow.any (fun sh => sh.source == h) = true := by
    cases hsh : s.sync.shadow with
    | none => simp
    | some sh => simpa using hs sh hsh
  unfold State.abandonHold
  dsimp only
  rw [if_neg other]
  split <;> exact ⟨rfl, rfl⟩

theorem State.abandonHold_not_serving (s : State) (h : Station) : (s.abandonHold h).sync.phase ≠ .entries ∧ (s.abandonHold h).sync.phase ≠ .tail := by
  have ended : ∀ u : State, (if u.serving then u.endTrain else u).sync.phase ≠ .entries ∧ (if u.serving then u.endTrain else u).sync.phase ≠ .tail := by
    intro u
    split
    next => exact ⟨u.endTrain_trainOver.1, u.endTrain_trainOver.2.1⟩
    next hs => exact ⟨fun he => hs (u.serving_iff.2 (.inl he)), fun he => hs (u.serving_iff.2 (.inr he))⟩
  exact ended _

theorem State.decideOwn_sameTurn (s : State) (a : Answers) (src : OfferSource) (b : StateBody) : s.SameTurn (s.decideOwn a src b) := by
  have ended : s.SameTurn (s.endSource src) := by simp [State.SameTurn]
  unfold State.decideOwn
  split
  · exact ended
  · split
    · simp [State.SameTurn]
    · exact ended.trans (State.applyFrame_sameTurn ..)

theorem completesBy_sameTurn (k : FrameKind) (a : Answers) (src : OfferSource) (f : TxFrame) (t : State) : t.SameTurn (completesBy k a src f t) := by
  cases k
  case join | syncReq | snapHead | snapEntry | snapTail => simp [State.SameTurn, completesBy]
  all_goals exact t.decideOwn_sameTurn a src _

theorem completesBy_holdFollows {s : State} {src : OfferSource} {f : TxFrame} (k : FrameKind) (a : Answers) :
    s.holdFollows (completesBy k a src f (s.sentHold src f a)) s.ctl.number f.cont :=
  State.holdFollows_of_sameTurn (s.sentHold_follows src f a) (completesBy_sameTurn ..)

/-- Settles O25. -/
theorem roundsEndAndHoldsStartAndEnd : Obligations.RoundsEndAndHoldsStartAndEnd := by
  unfold Obligations.RoundsEndAndHoldsStartAndEnd
  refine ⟨fun s hst hf hd => ?_, fun s h hst hf hd hh => ?_, fun s => exec_holdTimeout_of_none, fun s => exec_idle_events_of_busy,
    fun c f s hc hs hw hr => exec_heard_hold hc hs hw hr,
    fun c k a s src f hc h hr => ⟨_, exec_ownFrame_completed hc h hr, completesBy_holdFollows k a⟩⟩
  · have idle : (s.active && s.lineIdle) = true := by
      rw [s.active_iff.2 hst, s.lineIdle_iff.2 ⟨hf, hd⟩]; rfl
    rw [exec_roundEnd, if_pos idle, LineUnit.idleAt_of_ge (by omega) (State.filling_of_frameInProgress hf)]
  · have idle : (s.active && s.lineIdle) = true := by
      rw [s.active_iff.2 hst, s.lineIdle_iff.2 ⟨hf, hd⟩]; rfl
    refine ⟨_, (exec_holdTimeout_of_hold hh).trans (congrArg Host.Outcome.next (if_pos idle)), ?_⟩
    have line : (s.idleTo 40).line = { s.line with idleCount := max s.line.idleCount 40, rx := .empty } :=
      LineUnit.idleAt_of_ge (by omega) (State.filling_of_frameInProgress hf)
    obtain ⟨serving, tail⟩ := (s.idleTo 40).abandonHold_not_serving h
    obtain ⟨flags, sync, pending, attempts, eq⟩ := (s.idleTo 40).abandonHold_eq h
    refine ⟨by rw [eq], by rw [eq], ?_, by rw [eq, line], by rw [eq]; rfl, by rw [eq]; rfl, by rw [eq]; rfl, by rw [eq]; rfl, by rw [eq]; rfl,
      serving, tail, fun sh hsh hsrc => ?_, fun hs => ?_⟩
    · rw [eq, line]; exact Nat.le_max_right ..
    · subst hsrc
      obtain ⟨lost, shadow, req⟩ := State.abandonHold_shadowLost (s := s.idleTo 40) hsh
      exact ⟨shadow, lost, req⟩
    · exact State.abandonHold_other_shadow (s := s.idleTo 40) hs

end Sys2Proof.Machine
end

section
/-! State frames applied: by a receiver and by their sender (R4, R22, R33, R36, R38, R45, R48, R94, R95). -/

namespace Sys2Proof.Machine

/-! ### The effects by kind where the station stays -/

/-- The effects by kind of an apply that does not discard the station (R34, R38). -/
def State.peerEffects (s : State) (before : Replica) (x : Station) : StateBody → State
  | .join => (s.setLease x s.leaseUs).raise .peerJoined
  | .reap target => if before.present x && (reapTarget target).any before.present then s.raise .peerLapsed else s
  | .claim _ _ _ _ | .release _ | .withdraw _ | .downgrade _ | .leave | .heartbeat => s

section peerEffects
variable (s : State) (before : Replica) (x : Station) (b : StateBody)

@[simp] theorem State.peerEffects_ctl : (s.peerEffects before x b).ctl = s.ctl := by unfold State.peerEffects; repeat' (first | rfl | split | simp)
@[simp] theorem State.peerEffects_line : (s.peerEffects before x b).line = s.line := by unfold State.peerEffects; repeat' (first | rfl | split | simp)
@[simp] theorem State.peerEffects_cont : (s.peerEffects before x b).cont = s.cont := by unfold State.peerEffects; repeat' (first | rfl | split | simp)
@[simp] theorem State.peerEffects_replica : (s.peerEffects before x b).replica = s.replica := by
  unfold State.peerEffects; repeat' (first | rfl | split | simp)
@[simp] theorem State.peerEffects_sync : (s.peerEffects before x b).sync = s.sync := by unfold State.peerEffects; repeat' (first | rfl | split | simp)
@[simp] theorem State.peerEffects_req : (s.peerEffects before x b).req = s.req := by unfold State.peerEffects; repeat' (first | rfl | split | simp)
@[simp] theorem State.peerEffects_reapSet : (s.peerEffects before x b).lease.reapSet = s.lease.reapSet := by
  unfold State.peerEffects; repeat' (first | rfl | split | simp)
@[simp] theorem State.peerEffects_heartbeat : (s.peerEffects before x b).lease.heartbeat = s.lease.heartbeat := by
  unfold State.peerEffects; repeat' (first | rfl | split | simp)

end peerEffects

/-- A JOIN's lease renewal repeats the one for the frame itself (R34, R41). -/
theorem State.peerEffects_remaining {s : State} {x : Station} {b : StateBody} (before : Replica)
    (h : b = .join → x ≠ s.ctl.number → s.lease.remaining[x] = s.leaseUs) : (s.peerEffects before x b).lease.remaining = s.lease.remaining := by
  cases b with
  | join =>
    simp only [State.peerEffects, State.raise_lease, State.setLease]
    split
    next => rfl
    next hx => rw [← h rfl hx]; exact Vector.set_getElem_self ..
  | reap target => simp only [State.peerEffects]; split <;> rfl
  | claim | release | withdraw | downgrade | leave | heartbeat => rfl

theorem State.peerEffects_port {s : State} {b : StateBody} (before : Replica) (x : Station) (hj : b ≠ .join) (hr : ∀ target, b ≠ .reap target) :
    (s.peerEffects before x b).port = s.port := by
  cases b with
  | join => exact absurd rfl hj
  | reap target => exact absurd rfl (hr target)
  | claim | release | withdraw | downgrade | leave | heartbeat => rfl

theorem State.peerEffects_joined (s : State) (before : Replica) (x : Station) : (s.peerEffects before x .join).port.flag .peerJoined = true := by
  simp [State.peerEffects]

theorem reapTarget_ofNat (x : Station) : reapTarget (BitVec.ofNat 8 x.val) = some x := by
  have small : (BitVec.ofNat 8 x.val).toNat = x.val := by simp; omega
  unfold reapTarget
  simp only [small, x.isLt, dite_true]

theorem State.peerEffects_lapsed {before : Replica} {x y : Station} (hx : before.present x = true) (hy : before.present y = true) (s : State) :
    (s.peerEffects before x (.reap (BitVec.ofNat 8 y.val))).port.flag .peerLapsed = true := by
  simp [State.peerEffects, reapTarget_ofNat, hx, hy]

/-- An apply that neither admits a second holder of the local number, nor is the station's own LEAVE, nor reaps it. -/
theorem State.applyFrame_of_peer {s : State} {own : Bool} {x : Station} {b : StateBody} (tag : Option Byte) (hl : b = .leave → own = false)
    (hj : b = .join → x ≠ s.ctl.number) (hr : ¬ b.reaps s.ctl.number) :
    s.applyFrame own tag x b = (s.applied own tag x b).peerEffects s.replica x b := by
  have number : (s.applied own tag x b).ctl.number = s.ctl.number := by simp
  rw [State.applyFrame_eq_applied]
  cases b with
  | join => simp [Replica.admits, State.afterApply, State.peerEffects, hj rfl]
  | leave => simp [State.afterApply, State.peerEffects, hl rfl]
  | reap target =>
    have admits : s.replica.admits x (.reap target) = s.replica.present x := by simp [Replica.admits]
    simp only [admits, State.afterApply, State.peerEffects]
    cases ht : reapTarget target with
    | none => simp
    | some t =>
      have notHere : t ≠ s.ctl.number := fun h => hr ⟨target, rfl, by rw [ht, h]⟩
      cases s.replica.present x <;> cases s.replica.present t <;> simp [notHere]
  | claim | release | withdraw | downgrade | heartbeat => simp [State.afterApply, State.peerEffects]

/-! ### The reap set after an apply -/

theorem State.dropReaped_has_false {s : State} {y : Station} (h : s.lease.reapSet.has y = false) (b : StateBody) :
    (s.dropReaped b).lease.reapSet.has y = false := by
  cases b with
  | reap target =>
    dsimp only [State.dropReaped]
    split
    · simp [State.dropReap, StationSet.has_dropStation, h]
    · exact h
  | claim | release | withdraw | downgrade | join | leave | heartbeat => exact h

theorem State.dropReaped_target (s : State) (y : Station) : (s.dropReaped (.reap (BitVec.ofNat 8 y.val))).lease.reapSet.has y = false := by
  simp [State.dropReaped, reapTarget_ofNat, State.dropReap, StationSet.has_dropStation]

theorem State.dropReaped_of_other {b : StateBody} (h : ∀ target, b ≠ .reap target) (s : State) : s.dropReaped b = s := by
  cases b with
  | reap target => exact absurd rfl (h target)
  | claim | release | withdraw | downgrade | join | leave | heartbeat => rfl

theorem State.applied_reapSet (s : State) (own : Bool) (tag : Option Byte) (x : Station) (b : StateBody) :
    (s.applied own tag x b).lease.reapSet = (s.dropReaped b).lease.reapSet := by
  have dropped : ∀ t u : State, t.lease.reapSet = u.lease.reapSet → (t.dropReaped b).lease.reapSet = (u.dropReaped b).lease.reapSet := fun t u h => by
    cases b with
    | reap target =>
      dsimp only [State.dropReaped]
      split
      · simp [State.dropReap, h]
      · exact h
    | claim | release | withdraw | downgrade | join | leave | heartbeat => exact h
  have heartbeat : ∀ t : State, (if own then t.restartHeartbeat else t).lease.reapSet = t.lease.reapSet := by intro t; split <;> simp
  unfold State.applied
  refine dropped _ _ ?_
  rw [heartbeat, (State.notices_units ..).2.2.2.2.1]
  simp

@[simp] theorem State.applied_heartbeat (s : State) (x : Station) (b : StateBody) : (s.applied false none x b).lease.heartbeat = s.lease.heartbeat := by
  unfold State.applied
  dsimp only
  rw [State.dropReaped_lease_heartbeat, if_neg (by decide), (State.notices_units ..).2.2.2.2.1]
  simp

@[simp] theorem State.applied_leaseUs (s : State) (own : Bool) (tag : Option Byte) (x : Station) (b : StateBody) :
    (s.applied own tag x b).leaseUs = s.leaseUs := by
  unfold State.leaseUs
  rw [State.applied_port]

/-- Without a grant to the local number an apply of another station's frame reaches no request and no entry (R22). -/
theorem State.applied_of_no_grant {s : State} {x : Station} {b : StateBody} (h : s.grantsHere (s.replica.apply s.tableSize x b) = []) :
    (s.applied false none x b).req = s.req ∧ (s.applied false none x b).cont.sendList = s.cont.sendList := by
  have others : ∀ g ∈ (s.replica.apply s.tableSize x b).grants, g.grant.waiter.station ≠ s.ctl.number := fun g hg => by
    simpa using List.filter_eq_nil_iff.1 h g hg
  unfold State.applied
  dsimp only
  rw [if_neg (by decide), State.notices_of_others _ _ _ (by simpa using others)]
  simp [State.outcomeTaken]

/-! ### The receiver -/

theorem stateBodyOf_isState {k : FrameKind} {bytes : List Byte} {b : StateBody} (h : stateBodyOf k bytes = some b) : k.isState = true := by
  cases k <;> first | rfl | cases h

theorem stateBodyOf_join {k : FrameKind} {bytes : List Byte} {b : StateBody} (h : stateBodyOf k bytes = some b) : b = .join ↔ k = .join := by
  cases k <;> simp only [stateBodyOf, Option.some.injEq, reduceCtorEq] at h <;> subst h <;> simp [claimOf]

theorem stateBodyOf_reap {k : FrameKind} {bytes : List Byte} {b : StateBody} (h : stateBodyOf k bytes = some b) : (∃ target, b = .reap target) ↔ k = .reap := by
  cases k <;> simp only [stateBodyOf, Option.some.injEq, reduceCtorEq] at h <;> subst h <;> simp [claimOf]

theorem stateBodyOf_leave {k : FrameKind} {bytes : List Byte} {b : StateBody} (h : stateBodyOf k bytes = some b) : b = .leave ↔ k = .leave := by
  cases k <;> simp only [stateBodyOf, Option.some.injEq, reduceCtorEq] at h <;> subst h <;> simp [claimOf]

/-- A state frame of another number, agreed with, that completes at a member and does not reap the local number. -/
theorem exec_heard_applied {c : Instr} {f : HeardFrame} {b : StateBody} {s : State} (hc : Instr.heardFrame c = some f)
    (hb : stateBodyOf f.kind f.bytes = some b) (ha : s.ctl.state.applies = true) (hs : s.canHear = true) (hw : s.wellFormedHere f = true)
    (hr : f.answers.reject = false) (hg : s.agreesWith f) (hn : f.head.station ≠ s.ctl.number) :
    exec c s = .next ((s.heardHold f).applyFrame false none f.head.station b) := by
  rw [exec_heard_completed hc hs hw hr fun h => absurd h hn, State.delivered_state hb, State.decideHeard, State.heardHold_ctl,
    StationController.clean_state, if_pos ha, (s.agrees_iff f).2 hg, if_pos rfl]

/-- Settles O26. -/
theorem agreedStateFrameIsAppliedByTheReceiver : Obligations.AgreedStateFrameIsAppliedByTheReceiver := by
  unfold Obligations.AgreedStateFrameIsAppliedByTheReceiver
  intro c f b s hc hb ha hs hw hr hg hn hreap
  have run := exec_heard_applied hc hb ha hs hw hr hg hn
  have delivers : (s.heardHold f).applyFrame false none f.head.station b = s.delivered f (s.heardHold f) :=
    Host.Outcome.next.inj (run.symm.trans (exec_heard_completed hc hs hw hr fun h => absurd h hn))
  have peer := State.applyFrame_of_peer (s := s.heardHold f) (own := false) (x := f.head.station) (b := b) none (fun _ => rfl) (fun _ => by simpa using hn)
    (by simpa using hreap)
  have answer : s.heardAnswer f = some .agree := by
    simp [State.heardAnswer, stateBodyOf_isState hb, answerOf, ha, (s.agrees_iff f).2 hg]
  have renewed : (s.heardHold f).lease.remaining[f.head.station] = s.leaseUs := by simp [State.heardLease, hn]
  have remaining : ((s.heardHold f).applyFrame false none f.head.station b).lease.remaining = (s.heardHold f).lease.remaining := by
    rw [peer, State.peerEffects_remaining _ fun _ _ => ?_, State.applied_lease_remaining]
    rw [State.applied_lease_remaining, State.applied_leaseUs, State.heardHold_leaseUs]
    exact renewed
  have notThere : (s.heardHold f).lease.reapSet.has f.head.station = false := by simp [State.heardLease, StationSet.has_dropStation]
  obtain ⟨entries, offer, attempts, cont⟩ := (s.heardHold f).applied_entriesOnly f.head.station b
  refine ⟨_, run, by simp [peer], by simpa [peer, State.heardLine] using answer, by simp [peer, State.heardLine], by simp [peer, State.heardLine], ?_,
    by rw [remaining]; exact renewed, fun hno => ?_, ?_, by simp [peer, cont], by rw [delivers]; exact s.delivered_holdFollows f,
    by rw [delivers]; exact s.delivered_intrusionEnds f, fun y hy => ?_, by simp [peer, State.heardLease], by simp [peer, cont], by simp [peer, cont],
    by simp [peer, cont], fun hq => ?_, fun hk => ?_, fun x hx => ⟨?_, fun hp hpx => ?_⟩, fun hk hk' hq => ?_⟩
  · simp [peer, StationController.clean_of_not_muted (StationState.not_muted_of_applies ha)]
  · obtain ⟨req, list⟩ := State.applied_of_no_grant (s := s.heardHold f) (by simpa [State.grantsHere] using hno)
    rw [peer, State.peerEffects_req, State.peerEffects_cont, req, list]
    simp
  · rw [peer, State.peerEffects_reapSet, State.applied_reapSet]
    exact State.dropReaped_has_false notThere b
  · rw [remaining, State.heardHold_lease]
    simpa [State.heardLease, hn] using Vector.getElem_set_ne f.head.station.isLt y.isLt (fun hv => hy (Fin.ext hv.symm))
  · obtain ⟨-, sync, pending⟩ := State.heardHold_of_noIntrusion hq
    simp [peer, cont, sync, pending]
  · obtain rfl := (stateBodyOf_join hb).2 hk
    rw [peer]
    exact State.peerEffects_joined ..
  · subst hx
    rw [peer, State.peerEffects_reapSet, State.applied_reapSet]
    exact State.dropReaped_target ..
  · subst hx
    rw [peer]
    exact State.peerEffects_lapsed (by simpa using hp) (by simpa using hpx) _
  · obtain ⟨port, -, -⟩ := State.heardHold_of_noIntrusion hq
    rw [peer, State.peerEffects_port _ _ (fun h => hk ((stateBodyOf_join hb).1 h)) (fun target h => hk' ((stateBodyOf_reap hb).1 ⟨target, h⟩)),
      State.applied_port, port]

end Sys2Proof.Machine
end

section
/-! The station's own state frame applied, eviction and departure, and the joiner (R36, R38, R48, R78, R95, R125 to R127). -/

namespace Sys2Proof.Machine

/-! ### The sender -/

theorem completesBy_state {k : FrameKind} {f : TxFrame} {b : StateBody} (hb : stateBodyOf k f.body = some b) (hj : k ≠ .join) (a : Answers)
    (src : OfferSource) (t : State) : completesBy k a src f t = t.decideOwn a src b := by
  cases k <;> simp only [stateBodyOf, Option.some.injEq, reduceCtorEq] at hb <;> subst hb <;> first | rfl | exact absurd rfl hj

/-- An own state frame, other than a JOIN, that completes at a member and is not stale is applied. -/
theorem exec_own_applied {c : Instr} {k : FrameKind} {a : Answers} {s : State} {src : OfferSource} {f : TxFrame} {b : StateBody}
    (hc : Instr.ownFrame c = some (k, a)) (h : s.sendsKind k src f) (hb : stateBodyOf k f.body = some b) (hj : k ≠ .join)
    (ha : s.ctl.state.applies = true) (hr : a.reject = false) (hg : a.agree = true ∨ a.disagree = false) :
    exec c s = .next (((s.sentHold src f a).endSource src).applyFrame true src.tag s.ctl.number b) := by
  have fresh : (!a.agree && a.disagree) = false := by rcases hg with h | h <;> simp [h]
  rw [exec_ownFrame_completed hc h hr, completesBy_state hb hj, State.decideOwn]
  simp [ha, fresh]

/-- The sender's station with its frame's source ended. -/
theorem State.endSource_offer_none {s : State} (h : s.cont.offer = none) (src : OfferSource) : (s.endSource src).cont.offer = none := by
  cases src with
  | entry tag => simp [State.endSource, ContentionUnit.removeEntry, ContentionUnit.removeEntries, ContentionUnit.stopArbitration, h]
  | train | syncReq | join | leave | heartbeat | reap => exact h

theorem State.applied_offer_none {s : State} (h : s.cont.offer = none) (own : Bool) (tag : Option Byte) (x : Station) (b : StateBody) :
    (s.applied own tag x b).cont.offer = none := by
  have heartbeat : ∀ t : State, (if own then t.restartHeartbeat else t).cont.offer = t.cont.offer := by intro t; split <;> simp
  unfold State.applied
  dsimp only
  rw [State.dropReaped_cont_offer, heartbeat]
  rcases State.notices_offer (({ s with replica := (s.replica.apply s.tableSize x b).replica } : State).outcomeTaken tag
    (s.replica.apply s.tableSize x b)) (s.replica.apply s.tableSize x b).replica.sequence (s.replica.apply s.tableSize x b).grants with hn | hn
  · exact hn
  · rw [hn]; simpa using h

/-- The sender restarts its heartbeat timer (R48). -/
theorem State.applied_own_heartbeat {s : State} (h : s.ctl.state = .inStep) (tag : Option Byte) (x : Station) (b : StateBody) :
    (s.applied true tag x b).lease.heartbeat = .running (s.leaseUs / 4) ∧ (s.applied true tag x b).cont.heartbeatDue = false := by
  have restarts : ∀ t : State, t.ctl = s.ctl → t.port = s.port →
      t.restartHeartbeat.lease.heartbeat = .running (s.leaseUs / 4) ∧ t.restartHeartbeat.cont.heartbeatDue = false := fun t hc hp => by
    have us : t.leaseUs = s.leaseUs := by unfold State.leaseUs; rw [hp]
    unfold State.restartHeartbeat
    rw [if_pos (by rw [hc]; exact h), us]
    exact ⟨rfl, rfl⟩
  unfold State.applied
  dsimp only
  rw [State.dropReaped_lease_heartbeat, State.dropReaped_cont_heartbeatDue, if_pos rfl]
  refine restarts _ ?_ ?_
  · rw [(State.notices_units ..).2.1]; simp
  · rw [(State.notices_units ..).1]; simp

/-- Settles O31. -/
theorem agreedOwnStateFrameIsAppliedByTheSender : Obligations.AgreedOwnStateFrameIsAppliedByTheSender := by
  unfold Obligations.AgreedOwnStateFrameIsAppliedByTheSender
  intro c k a s src f b hc h hb hj hl ha hr hg hreap
  obtain ⟨-, rfl⟩ := id h
  have run := exec_own_applied hc h hb hj ha hr hg
  have notLeave : b ≠ .leave := fun k => hl ((stateBodyOf_leave hb).1 k)
  have notJoin : b ≠ .join := fun k => hj ((stateBodyOf_join hb).1 k)
  have peer := State.applyFrame_of_peer (s := (s.sentHold src f a).endSource src) (own := true) (x := s.ctl.number) (b := b) src.tag
    (fun k => absurd k notLeave) (fun k => absurd k notJoin) (by simpa using hreap)
  have tableSize : ((s.sentHold src f a).endSource src).tableSize = s.tableSize := by
    unfold State.tableSize
    rw [State.endSource_port]
    exact s.sentHold_tableSize src f a
  have leaseUs : ((s.sentHold src f a).endSource src).leaseUs = s.leaseUs := by
    unfold State.leaseUs
    rw [State.endSource_port]
    exact s.sentHold_leaseUs src f a
  have turn : ((s.sentHold src f a).endSource src).SameTurn _ := State.applied_sameTurn _ true src.tag s.ctl.number b
  refine ⟨_, run, by simp [peer, tableSize], ?_, ?_, by simp [peer], by simp [peer, State.sent], by simp [peer, State.sent], ?_, fun hq => ⟨?_, fun hk => ⟨?_, ?_⟩⟩,
    fun hi => ?_, fun x hx => ?_⟩
  · rw [peer, State.peerEffects_cont]
    exact State.applied_offer_none (State.endSource_offer_none rfl src) ..
  · rw [peer, State.peerEffects_cont, turn.2.2]
    simp
  · rw [peer, State.peerEffects_remaining _ fun k => absurd k notJoin]
    simp
  · simp [peer, (State.sentHold_of_noIntrusion hq src f a).2.1]
  · rw [peer, State.peerEffects_port _ _ notJoin (fun target k => hk ((stateBodyOf_reap hb).1 ⟨target, k⟩)), State.applied_port, State.endSource_port,
      (State.sentHold_of_noIntrusion hq src f a).1]
  · rw [peer, State.peerEffects_reapSet, State.applied_reapSet,
      State.dropReaped_of_other (fun target k => hk ((stateBodyOf_reap hb).1 ⟨target, k⟩))]
    simp
  · obtain ⟨timer, due⟩ := State.applied_own_heartbeat (s := (s.sentHold src f a).endSource src) (by simpa using hi) src.tag s.ctl.number b
    rw [peer, State.peerEffects_heartbeat, State.peerEffects_cont, timer, due, leaseUs]
    exact ⟨rfl, rfl⟩
  · subst hx
    rw [peer, State.peerEffects_reapSet, State.applied_reapSet]
    exact State.dropReaped_target ..

/-! ### Eviction and departure -/

theorem Entry.remove_grants_ne {e : Entry} {x : Station} {g : Grant} (h : g ∈ (e.remove x).2) : g.waiter.station ≠ x := by
  have split := promoteFrom_split ((e.dropHolder x).dropWaiter x).waiters ((e.dropHolder x).dropWaiter x)
  have waiter : g.waiter ∈ ((e.dropHolder x).dropWaiter x).waiters := by
    rw [← split]
    exact List.mem_append_left _ (List.mem_map_of_mem h)
  simpa [Entry.dropWaiter] using (List.mem_filter.1 waiter).2

/-- Removal makes no grant to the station removed (R11). -/
theorem Replica.removeStation_grants_ne {r : Replica} {ts : Nat} {x : Station} {g : TableGrant} (h : g ∈ (r.removeStation ts x).grants) :
    g.grant.waiter.station ≠ x := by
  obtain ⟨i, -, hg⟩ := List.mem_flatMap.1 h
  obtain ⟨k, hk, rfl⟩ := List.mem_map.1 hg
  exact Entry.remove_grants_ne hk

theorem Replica.apply_of_reap {r : Replica} {x t : Station} (hx : r.present x = true) (ht : r.present t = true) (ts : Nat) :
    (r.apply ts x (.reap (BitVec.ofNat 8 t.val))).grants = ((r.setMembership t .lapsed).removeStation ts t).grants := by
  simp [Replica.apply, Replica.admits, Replica.effect, reapTarget_ofNat, hx, ht]

theorem Replica.apply_of_leave {r : Replica} {x : Station} (hx : r.present x = true) (ts : Nat) :
    (r.apply ts x .leave).grants = ((r.setMembership x .absent).removeStation ts x).grants := by
  simp [Replica.apply, Replica.admits, Replica.effect, hx]

/-- An apply without a tag and without a grant to the local number reaches no request. -/
theorem State.applied_req_of_no_grant {s : State} {x : Station} {b : StateBody} (own : Bool)
    (h : ∀ g ∈ (s.replica.apply s.tableSize x b).grants, g.grant.waiter.station ≠ s.ctl.number) : (s.applied own none x b).req = s.req := by
  have heartbeat : ∀ t : State, (if own then t.restartHeartbeat else t).req = t.req := by intro t; split <;> simp
  unfold State.applied
  dsimp only
  rw [State.dropReaped_req, heartbeat, State.notices_of_others _ _ _ (by simpa using h)]
  rfl

theorem RequestUnit.abandonWaits_eq (r : RequestUnit) (n : Word) :
    (r.abandonWaits n).contexts = r.contexts.map (fun c => if c.state = .waiting ∨ c.state = .withdrawing then c.done else c) ∧
    (r.abandonWaits n).queue = r.queue ++ (r.contexts.filter fun c => c.state == .waiting || c.state == .withdrawing).map
      fun c => c.record { result := .abandoned, tooLate := false, generation := 0#16, sequence := n } := by
  have waits : r.abandonWaits n = r.complete fun c => if (c.state == .waiting || c.state == .withdrawing) = true then
      some { result := .abandoned, tooLate := false, generation := 0#16, sequence := n } else none := by
    simp [RequestUnit.abandonWaits]
  rw [waits]
  obtain ⟨contexts, queue⟩ := r.complete_plain (fun c => c.state == .waiting || c.state == .withdrawing)
    { result := .abandoned, tooLate := false, generation := 0#16, sequence := n } (fun c h => by rintro hd; simp [hd] at h)
  exact ⟨contexts.trans (by simp), queue⟩

/-- Settles O33. -/
theorem appliedReapEvictsAndLeaveDeparts : Obligations.AppliedReapEvictsAndLeaveDeparts := by
  unfold Obligations.AppliedReapEvictsAndLeaveDeparts
  refine ⟨fun h a s ha hs hr hseq hn hx ht => ?_, fun a s f hsend hst hr hg hp hq => ?_⟩
  · let f : HeardFrame := { kind := .reap, head := h, bytes := [BitVec.ofNat 8 s.ctl.number.val], answers := a }
    have run := exec_heard_applied (c := .reap (.heard h (BitVec.ofNat 8 s.ctl.number.val)) a) (f := f) rfl rfl ha hs rfl hr hseq hn
    have others : ∀ g ∈ ((s.heardHold f).replica.apply (s.heardHold f).tableSize h.station (.reap (BitVec.ofNat 8 s.ctl.number.val))).grants,
        g.grant.waiter.station ≠ (s.heardHold f).ctl.number := fun g hg => by
      rw [Replica.apply_of_reap (by simpa using hx) (by simpa using ht)] at hg
      simpa using Replica.removeStation_grants_ne hg
    have evicts : (s.heardHold f).applyFrame false none h.station (.reap (BitVec.ofNat 8 s.ctl.number.val)) =
        ((s.heardHold f).applied false none h.station (.reap (BitVec.ofNat 8 s.ctl.number.val))).expel .evicted .evicted (s.replica.sequence + 1#16) := by
      rw [State.applyFrame_eq_applied]
      simp [Replica.admits, hx, ht, State.afterApply, reapTarget_ofNat, (Replica.apply_sequence_valid ..).1]
    refine ⟨_, run.trans (congrArg Host.Outcome.next evicts), by simp, by simp, Replica.isEmptyForm_of_eq (by simp), State.expel_sendList ..,
      fun x hx => RequestUnit.evictAll_done _ _ hx, ?_⟩
    rw [State.expel_req, State.applied_req_of_no_grant false others, (RequestUnit.evictAll_eq ..).2, State.heardHold_req]
  · have run := exec_own_applied (c := .leave .own a) (b := .leave) rfl hsend rfl nofun (by rw [hst]; rfl) hr hg
    let u := (s.sentHold .leave f a).endSource .leave
    have others : ∀ g ∈ (u.replica.apply u.tableSize s.ctl.number .leave).grants, g.grant.waiter.station ≠ u.ctl.number := fun g hg => by
      rw [Replica.apply_of_leave (by simpa [u] using hp)] at hg
      simpa [u] using Replica.removeStation_grants_ne hg
    have departs : u.applyFrame true none s.ctl.number .leave = (u.applied true none s.ctl.number .leave).depart (s.replica.sequence + 1#16) := by
      rw [State.applyFrame_eq_applied]
      simp [u, Replica.admits, hp, State.afterApply, (Replica.apply_sequence_valid ..).1]
    refine ⟨_, run.trans (congrArg Host.Outcome.next departs), by simp, ?_, Replica.isEmptyForm_of_eq (by simp), State.enterEnd_sendList _ .departed, rfl, ?_⟩
    · simp [u, (State.sentHold_of_noIntrusion hq .leave f a).1]
    · show (RequestUnit.abandonWaits _ _).queue = _
      rw [(RequestUnit.abandonWaits_eq ..).2, State.applied_req_of_no_grant true others]
      simp [u]

/-! ### The joiner -/

theorem PortUnit.founded_membership (p : PortUnit) (n x : Station) : (p.founded n).membership x = if x = n then .present else .absent := by
  unfold PortUnit.founded Replica.membership
  rw [Fin.getElem_fin, Vector.getElem_set]
  by_cases h : x = n
  · simp [h]
  · rw [if_neg (fun hv => h (Fin.ext hv.symm)), if_neg h]
    exact Vector.getElem_replicate _

theorem State.readJoin_of_joining {s : State} (h : s.ctl.state = .joining) (a : Answers) : s.readJoin a =
    if a.disagree then s.expel .refused .refused 0#16
    else if a.agree then { s with ctl := { s.ctl with state := .syncing }, cont := { s.cont with syncReqPending := true } }
    else if s.ctl.heardState then s.enterListening else s.founds :=
  if_neg (not_not_intro h)

/-- The hold of an own frame sets no configuration. -/
theorem State.sentHold_port (s : State) (src : OfferSource) (f : TxFrame) (a : Answers) :
    ∃ flags, (s.sentHold src f a).port = { s.port with flags := flags } := by
  obtain ⟨flags, _, _, _, _, _, h⟩ := (s.sent src f a).followHold_eq s.ctl.number f.cont
  exact ⟨flags, by rw [State.sentHold, h]; rfl⟩

theorem State.expel_offer_none {s : State} (h : s.cont.offer = none) (st : StationState) (f : EventFlag) (n : Word) :
    (s.expel st f n).cont.offer = none := by
  rcases s.enterEnd_offer st with k | k
  · exact k
  · exact k.trans h

/-- Settles O35. -/
theorem joinerReadsItsJoin : Obligations.JoinerReadsItsJoin := by
  unfold Obligations.JoinerReadsItsJoin
  intro a s f hsend hst hr
  let u := (s.sentHold .join f a).endSource .join
  have run : exec (.join .own a) s = .next (u.readJoin a) := exec_ownFrame_completed (c := .join .own a) rfl hsend hr
  have joining : u.ctl.state = .joining := by simpa [u] using hst
  have leaseUs : u.leaseUs = s.leaseUs := s.sentHold_leaseUs .join f a
  have heard : u.ctl.heardState = s.ctl.heardState := by simp [u]
  rw [run, State.readJoin_of_joining joining]
  cases hd : a.disagree with
  | true =>
    refine ⟨_, rfl, rfl, State.expel_offer_none rfl .., fun _ => ⟨rfl, by simp, Replica.isEmptyForm_of_eq rfl⟩, ?_, ?_, ?_⟩ <;> simp
  | false =>
    cases hg : a.agree with
    | true =>
      refine ⟨_, rfl, rfl, rfl, ?_, fun _ _ => ⟨rfl, rfl, by simp [u]⟩, ?_, ?_⟩ <;> simp
    | false =>
      cases hh : u.ctl.heardState with
      | true =>
        refine ⟨_, rfl, rfl, rfl, ?_, ?_, fun _ _ _ => ⟨rfl, rfl, ?_, by simp [u]⟩, ?_⟩
        · simp
        · simp
        · exact congrArg (fun us => Timer.running (us / 2)) leaseUs
        · simp [← heard, hh]
      | false =>
        obtain ⟨flags, port⟩ := s.sentHold_port .join f a
        have founded : u.port.founded u.ctl.number = s.port.founded s.ctl.number := by
          have number : u.ctl.number = s.ctl.number := by simp [u]
          have block : u.port = { s.port with flags := flags } := port
          rw [block, number]
          rfl
        refine ⟨_, rfl, rfl, rfl, ?_, ?_, ?_, fun _ _ _ => ⟨rfl, by simp [State.founds], ?_, ?_⟩⟩
        · simp
        · simp
        · simp [← heard, hh]
        · exact congrArg (fun us => Timer.running (us / 4)) leaseUs
        · have replica : u.founds.replica = s.port.founded s.ctl.number := founded
          simp only [Bool.false_eq_true, if_false, replica]
          refine ⟨rfl, rfl, rfl, fun x => PortUnit.founded_membership .., fun i hi hi' => ?_⟩
          rw [PortUnit.founded_entry _ _ i hi']
          exact if_pos hi

end Sys2Proof.Machine
end

section
/-! Attempts: the failed one, the stale one and the abandoned one (R77, R78, R83 to R85, R93, R95, R128, R141, R147). -/

namespace Sys2Proof.Machine

/-! ### A failed attempt -/

theorem Context.markedSend_iff (c : Context) : c.markedSend = true ↔ c.state = .transmitting ∧ c.cause ≠ .none := by
  simp [Context.markedSend, Context.marked]

/-- The failed attempt of a context that is not a marked one in TRANSMITTING. -/
theorem State.failAttempt_unmarked {s : State} {c : Context} (hf : s.req.find c.tag = some c) (h : c.markedSend = false) :
    s.failAttempt (.entry c.tag) =
      { s with req := s.req.update c.tag Context.failed, cont := s.cont.updateEntry c.tag fun e => { e with attempts := bump e.attempts } } :=
  if_neg (by rw [hf]; simpa using h)

/-- The failed attempt of a marked context in TRANSMITTING. -/
theorem State.failAttempt_marked {s : State} {c : Context} (hf : s.req.find c.tag = some c) (h : c.markedSend = true) :
    s.failAttempt (.entry c.tag) = { s with req := s.req.completeCause c.tag 0#16 0#16, cont := s.cont.removeEntry c.tag } :=
  if_pos (by rw [hf]; simpa using h)

/-- What a failed attempt leaves of its context and its entry (R141, R147). -/
theorem State.failAttempt_context {s t : State} {c : Context} (hl : s.req.Lawful) (hc : c ∈ s.req.contexts)
    (req : t.req = s.req) (list : t.cont.sendList = s.cont.sendList) : s.attemptFailed (t.failAttempt (.entry c.tag)).clearOffer c.tag c := by
  have found : t.req.find c.tag = some c := by rw [req]; exact RequestUnit.find_of_mem hl.tags hc
  have failed : c.markedSend = false → (t.failAttempt (.entry c.tag)).clearOffer.req.find c.tag = some c.failed ∧
      (t.failAttempt (.entry c.tag)).clearOffer.req.queue = s.req.queue ∧
      (t.failAttempt (.entry c.tag)).clearOffer.cont.sendList =
        s.cont.sendList.map fun e => if e.tag == c.tag then { e with attempts := min 16 (e.attempts + 1) } else e := fun h => by
    rw [State.failAttempt_unmarked found h]
    have queue : (t.req.update c.tag Context.failed).queue = s.req.queue := by rw [req]; rfl
    refine ⟨?_, queue, congrArg (List.map _) list⟩
    refine (RequestUnit.find_update t.req c.tag c.tag Context.failed fun d => by simp).trans ?_
    rw [if_pos rfl, found]
    rfl
  refine ⟨fun hst hcause => ?_, fun hst res hres => ?_, fun hst => ?_⟩
  · obtain ⟨find, queue, entries⟩ := failed (by simp [Context.markedSend, Context.marked, hcause])
    exact ⟨find.trans (by simp [Context.failed, hst]), queue, entries⟩
  · have marked : c.markedSend = true := c.markedSend_iff.2 ⟨hst, fun h => by rw [h] at hres; cases hres⟩
    obtain ⟨queue, find⟩ := RequestUnit.completeCause_of_marked hl hc (by simp [hst]) hres 0#16 0#16
    rw [State.failAttempt_marked found marked]
    refine ⟨?_, ?_, ?_⟩
    · show (t.req.completeCause c.tag 0#16 0#16).queue = _
      rw [req]; exact queue
    · show ((t.req.completeCause c.tag 0#16 0#16).find c.tag).map Context.state = _
      rw [req, find]; rfl
    · show t.cont.sendList.filter _ = _
      rw [list]; rfl
  · obtain ⟨find, queue, entries⟩ := failed (by simp [Context.markedSend, hst])
    exact ⟨find.trans (by simp [Context.failed, hst]), queue, entries⟩

/-- The counts of a failed attempt read the state's units as they stood. -/
theorem State.failureCounted.of_same {s t u : State} {src : OfferSource} (h : t.failureCounted u src) (cont : t.cont = { s.cont with turnUsed := t.cont.turnUsed, offer := t.cont.offer })
    (req : (∀ tag : Byte, src ≠ .entry tag) → t.req = s.req) : s.failureCounted u src := by
  obtain ⟨train, syncReq, join, leave, heartbeat, reap, entry, rest, frame⟩ := h
  have attempts : t.cont.attempts = s.cont.attempts := by rw [cont]
  have list : t.cont.sendList = s.cont.sendList := by rw [cont]
  rw [attempts] at train syncReq join leave heartbeat reap entry
  refine ⟨train, syncReq, join, leave, heartbeat, reap, entry, fun hs => ⟨(rest hs).1.trans (req hs), (rest hs).2.trans list⟩, ?_⟩
  rw [cont] at frame
  exact frame

/-! ### Bit errors -/

theorem exec_bitError {s : State} {o : Offer} (ho : s.cont.offer = some o) (slot : Nat) : exec (.bitError slot) s = .next
    (if 6 ≤ slot ∧ (s.offerSlots o)[slot]? = some true then
      if o.source = .join then
        (((s.passArbitration.frameEnds .empty (slotsCheck ((s.offerSlots o).take slot)) none).failAttempt o.source).clearOffer).expel .refused .clash 0#16
      else ((s.passArbitration.frameEnds .empty (slotsCheck ((s.offerSlots o).take slot)) none).failAttempt o.source).clearOffer
    else s) := by
  simp only [exec, execBitError, ho]

theorem State.passArbitration_of_past {s : State} {o : Offer} (ho : s.cont.offer = some o) (hp : o.phase ≠ .arbitrating) : s.passArbitration = s := by
  unfold State.passArbitration
  rw [ho]
  exact if_neg hp

/-- Settles O23. -/
theorem failedAttemptsAreCountedAndApplyNothing : Obligations.FailedAttemptsAreCountedAndApplyNothing := by
  unfold Obligations.FailedAttemptsAreCountedAndApplyNothing
  refine ⟨fun s o slot ho hp hsrc hslot hbit => ?_, fun s o slot ho hsrc hslot hbit => ?_, fun s slot h => ?_,
    fun c k a s src f hc hsend hr => ⟨_, exec_ownFrame_rejected hc hsend hr, ?_⟩⟩
  · let u := s.frameEnds .empty (slotsCheck ((s.offerSlots o).take slot)) none
    have run : exec (.bitError slot) s = .next ((u.failAttempt o.source).clearOffer) := by
      rw [exec_bitError ho, if_pos ⟨hslot, hbit⟩, if_neg hsrc, State.passArbitration_of_past ho (by rw [hp]; decide)]
    refine ⟨_, run, rfl, by simp [u], by simp [u], by simp [u], by simp [u], by simp [u], by simp [u], by simp [u, State.frameEnds], by simp [u, State.frameEnds],
      by simp [u, State.frameEnds], fun tag c hs hl hc ht => ?_, (u.failAttempt_counted o.source).of_same rfl fun _ => rfl⟩
    subst ht
    rw [hs]
    exact State.failAttempt_context (s.requestLaw_iff.1 hl).1 hc rfl rfl
  · have run := exec_bitError ho slot
    rw [if_pos ⟨hslot, hbit⟩, if_pos hsrc] at run
    exact ⟨_, run, rfl, by simp, rfl, State.expel_offer_none rfl ..⟩
  · cases ho : s.cont.offer with
    | none => simp only [exec, execBitError, ho]
    | some o =>
      rw [exec_bitError ho, if_neg]
      rintro ⟨hslot, hbit⟩
      rcases h o ho with h | h
      · omega
      · exact h hbit
  · obtain ⟨-, rfl⟩ := id hsend
    refine ⟨rfl, by simp [State.sent], by simp [State.sent], by simp [State.sent], by simp [State.sent], by simp [State.sent], by simp [State.sent],
      by simp [State.sent], fun tag c hs hl hc ht => ?_, ((s.sent src f a).failAttempt_counted src).of_same rfl fun _ => rfl⟩
    subst ht
    rw [hs]
    exact State.failAttempt_context (s.requestLaw_iff.1 hl).1 hc rfl rfl

/-! ### The stale sender -/

/-- The source of a stale send, before the loss of step (R95, R147). -/
def State.staleSource (s : State) : OfferSource → State
  | .entry tag =>
    if (s.req.find tag).any Context.markedSend then
      { s with req := s.req.completeCause tag 0#16 0#16, cont := s.cont.removeEntry tag }
    else { s with req := s.req.update tag Context.stale, cont := s.cont.updateEntry tag fun e => { e with attempts := 0 } }
  | src => s.endSource src

theorem State.staleSend_eq (s : State) (src : OfferSource) : s.staleSend src = (s.staleSource src).loseStep false := by
  cases src <;> rfl

section staleSource
variable (s : State) (src : OfferSource)

@[simp] theorem State.staleSource_replica : (s.staleSource src).replica = s.replica := by
  cases src with
  | entry tag => simp only [State.staleSource]; split <;> rfl
  | train | syncReq | join | leave | heartbeat | reap => rfl

theorem State.staleSource_offer_none (h : s.cont.offer = none) : (s.staleSource src).cont.offer = none := by
  cases src with
  | entry tag =>
    simp only [State.staleSource]
    split
    · exact State.endSource_offer_none (src := .entry tag) h
    · exact h
  | train | syncReq | join | leave | heartbeat | reap => exact h

end staleSource

theorem State.loseStep_offer_none {s : State} (h : s.cont.offer = none) (q : Bool) : (s.loseStep q).cont.offer = none := by
  have cleared : s.cont.leaveMember.offer = none := by simp [ContentionUnit.leaveMember, ContentionUnit.stopArbitration, h]
  cases q <;> exact cleared

/-- The stale send of a context (R95, R142, R147). -/
theorem State.staleSource_context {s : State} {c : Context} (hl : s.req.Lawful) (hc : c ∈ s.req.contexts) :
    (c.markedSend = false → (s.staleSource (.entry c.tag)).req.find c.tag = some c.stale ∧ (s.staleSource (.entry c.tag)).req.queue = s.req.queue ∧
      (s.staleSource (.entry c.tag)).cont.sendList = s.cont.sendList.map fun e => if e.tag == c.tag then { e with attempts := 0 } else e) ∧
    (c.state = .transmitting → ∀ res, c.cause.result = some res →
      (s.staleSource (.entry c.tag)).req.queue = s.req.queue ++ [c.record { result := res, tooLate := false, generation := 0#16, sequence := 0#16 }] ∧
      (s.staleSource (.entry c.tag)).cont.sendList = s.cont.sendList.filter fun e => e.tag != c.tag) := by
  have found := RequestUnit.find_of_mem hl.tags hc
  refine ⟨fun h => ?_, fun hst res hres => ?_⟩
  · have eq : s.staleSource (.entry c.tag) = { s with req := s.req.update c.tag Context.stale, cont := s.cont.updateEntry c.tag fun e => { e with attempts := 0 } } :=
      if_neg (by rw [found]; simpa using h)
    rw [eq]
    refine ⟨(RequestUnit.find_update s.req c.tag c.tag Context.stale fun d => by simp).trans ?_, rfl, rfl⟩
    rw [if_pos rfl, found]
    rfl
  · have marked : c.markedSend = true := c.markedSend_iff.2 ⟨hst, fun h => by rw [h] at hres; cases hres⟩
    have eq : s.staleSource (.entry c.tag) = { s with req := s.req.completeCause c.tag 0#16 0#16, cont := s.cont.removeEntry c.tag } :=
      if_pos (by rw [found]; simpa using marked)
    rw [eq]
    exact ⟨(RequestUnit.completeCause_of_marked hl hc (by simp [hst]) hres 0#16 0#16).1, rfl⟩

theorem completesBy_isState {k : FrameKind} (hk : k.isState = true) (hj : k ≠ .join) (a : Answers) (src : OfferSource) (f : TxFrame) (t : State) :
    ∃ b, completesBy k a src f t = t.decideOwn a src b := by
  cases k <;> first | exact ⟨_, rfl⟩ | exact absurd rfl hj | cases hk

/-- Settles O34. -/
theorem staleSenderLosesStep : Obligations.StaleSenderLosesStep := by
  unfold Obligations.StaleSenderLosesStep
  intro c k a s src f hc h hk hj ha hr hg hd
  obtain ⟨-, rfl⟩ := id h
  let u := s.sentHold src f a
  have run : exec c s = .next ((u.staleSource src).loseStep false) := by
    obtain ⟨b, decides⟩ := completesBy_isState hk hj a src f u
    have member : u.ctl.state.applies = true := by simpa [u] using ha
    rw [exec_ownFrame_completed hc h hr, decides, State.decideOwn, member, hg, hd, ← State.staleSend_eq]
    rfl
  obtain ⟨leave, -, -, lease⟩ := State.loseStep_member (u.staleSource src) false
  have turn : u.SameTurn (u.staleSend src) := by simp [State.SameTurn]
  rw [State.staleSend_eq] at turn
  refine ⟨_, run, by simp, by simp [u], State.loseStep_flag _, by simp, State.loseStep_offer_none (u.staleSource_offer_none src rfl) false,
    by rw [lease]; rfl, by rw [lease]; rfl, leave, turn.2.2.trans (by simp [u]), fun tag x hs hl hx ht => ?_⟩
  subst hs ht
  have reqEq : u.req = s.req := by simp [u]
  have listEq : u.cont.sendList = s.cont.sendList := by simp [u]
  obtain ⟨stale, marked⟩ := State.staleSource_context (s := u) (c := x) (by rw [reqEq]; exact (s.requestLaw_iff.1 hl).1) (by rw [reqEq]; exact hx)
  rw [reqEq, listEq] at stale marked
  rw [State.loseStep_req, State.loseStep_cont_sendList]
  refine ⟨fun hst hcause => ?_, fun hst => ?_, marked⟩
  · obtain ⟨find, queue, entries⟩ := stale (by simp [Context.markedSend, Context.marked, hcause])
    exact ⟨find.trans (by simp [Context.stale, hst]), queue, entries⟩
  · obtain ⟨find, queue, entries⟩ := stale (by simp [Context.markedSend, hst])
    exact ⟨find.trans (by simp [Context.stale, hst]), queue, entries⟩

/-! ### Abandonment -/

/-- A frame whose attempt count has reached 16 (R84). -/
def State.atLimit (s : State) : OfferSource → Prop
  | .train => 16 ≤ s.cont.attempts.train
  | .syncReq => 16 ≤ s.cont.attempts.syncReq
  | .join => 16 ≤ s.cont.attempts.join
  | .leave => 16 ≤ s.cont.attempts.leave
  | .heartbeat => 16 ≤ s.cont.attempts.heartbeat
  | .reap x => s.cont.attempts.reapTarget = some x ∧ 16 ≤ s.cont.attempts.reap
  | .entry tag => ∃ e ∈ s.cont.sendList, e.tag = tag ∧ 16 ≤ e.attempts

theorem State.abandonDue_spec (s : State) :
    (∃ src, s.abandonDue = some src ∧ s.atLimit src) ∨ (s.abandonDue = none ∧ ∀ src, ¬ s.atLimit src) := by
  unfold State.abandonDue
  simp only [decide_eq_true_eq]
  by_cases train : Config.attemptLimit ≤ s.cont.attempts.train
  · exact .inl ⟨_, if_pos train, train⟩
  rw [if_neg train]
  by_cases syncReq : Config.attemptLimit ≤ s.cont.attempts.syncReq
  · exact .inl ⟨_, if_pos syncReq, syncReq⟩
  rw [if_neg syncReq]
  by_cases join : Config.attemptLimit ≤ s.cont.attempts.join
  · exact .inl ⟨_, if_pos join, join⟩
  rw [if_neg join]
  by_cases leave : Config.attemptLimit ≤ s.cont.attempts.leave
  · exact .inl ⟨_, if_pos leave, leave⟩
  rw [if_neg leave]
  by_cases heartbeat : Config.attemptLimit ≤ s.cont.attempts.heartbeat
  · exact .inl ⟨_, if_pos heartbeat, heartbeat⟩
  rw [if_neg heartbeat]
  split
  next x count target reap => exact .inl ⟨_, rfl, target, of_decide_eq_true reap⟩
  next noReap =>
    cases hf : s.cont.sendList.find? fun e => decide (Config.attemptLimit ≤ e.attempts) with
    | some e =>
      have limit : Config.attemptLimit ≤ e.attempts := by simpa using List.find?_some hf
      exact .inl ⟨_, rfl, e, List.mem_of_find?_eq_some hf, rfl, limit⟩
    | none =>
      refine .inr ⟨rfl, fun src => ?_⟩
      cases src with
      | train => exact train
      | syncReq => exact syncReq
      | join => exact join
      | leave => exact leave
      | heartbeat => exact heartbeat
      | reap x => rintro ⟨target, reap⟩; exact noReap x target (decide_eq_true reap)
      | entry tag =>
        rintro ⟨e, he, -, count⟩
        exact List.find?_eq_none.1 hf e he (decide_eq_true count)

theorem State.abandonDue_atLimit {s : State} {src : OfferSource} (h : s.abandonDue = some src) : s.atLimit src := by
  rcases s.abandonDue_spec with ⟨src', h', limit⟩ | ⟨h', -⟩
  · obtain rfl := Option.some.inj (h.symm.trans h')
    exact limit
  · rw [h] at h'; cases h'

theorem State.abandonDue_none_iff (s : State) : s.abandonDue = none ↔ ∀ src, ¬ s.atLimit src := by
  rcases s.abandonDue_spec with ⟨src, h, limit⟩ | ⟨h, limit⟩
  · rw [h]; exact ⟨nofun, fun k => absurd limit (k src)⟩
  · exact iff_of_true h limit

theorem exec_abandon_of_due {s : State} {src : OfferSource} (h : s.abandonDue = some src) :
    exec .abandon s = .next ((s.abandonSource src).raise .mediumFault) := by
  simp only [exec, execAbandon, h]

/-- One context completes, and no other has its tag. -/
theorem RequestUnit.completeTag_queue {r : RequestUnit} (h : r.Lawful) {c : Context} (hc : c ∈ r.contexts) (hopen : c.state ≠ .done) (k : Completion) :
    (r.completeTag c.tag k).queue = r.queue ++ [c.record k] := by
  have decided : c.decided (fun d => if d.tag == c.tag then some k else none) = some k := by
    rw [Context.decided_eq_some]
    exact ⟨hopen, by simp⟩
  refine (RequestUnit.complete_queue_of_tag h hc fun d hd => by simp [hd]).trans ?_
  rw [decided]
  rfl

theorem State.abandonSource_of_serving {s : State} (h : s.serving = true) :
    s.abandonSource .train = ({ s with cont := { s.cont with silent := s.cont.hold.isSome } } : State).endTrain := if_pos h

theorem State.abandonSource_of_not_serving {s : State} (h : s.serving = false) :
    s.abandonSource .train = { s with cont := s.cont.clearTrainIntent, sync := { s.sync with phase := .none } } := if_neg (by rw [h]; decide)

/-- Settles O24. -/
theorem abandonReportsToTheFrameOwner : Obligations.AbandonReportsToTheFrameOwner := by
  unfold Obligations.AbandonReportsToTheFrameOwner
  refine ⟨fun s h => by simp only [exec, execAbandon, h], fun s => ?_, fun s src h => ?_, fun s src h => ⟨_, exec_abandon_of_due h, by simp, ?_⟩⟩
  · rw [State.abandonDue_none_iff]
    refine ⟨fun h => ⟨Nat.lt_of_not_le (h .train), Nat.lt_of_not_le (h .syncReq), Nat.lt_of_not_le (h .join), Nat.lt_of_not_le (h .leave),
      Nat.lt_of_not_le (h .heartbeat), fun x hx => Nat.lt_of_not_le fun k => h (.reap x) ⟨hx, k⟩,
      fun e he => Nat.lt_of_not_le fun k => h (.entry e.tag) ⟨e, he, rfl, k⟩⟩, ?_⟩
    rintro ⟨train, syncReq, join, leave, heartbeat, reap, entries⟩ src
    cases src with
    | train => exact Nat.not_le_of_lt train
    | syncReq => exact Nat.not_le_of_lt syncReq
    | join => exact Nat.not_le_of_lt join
    | leave => exact Nat.not_le_of_lt leave
    | heartbeat => exact Nat.not_le_of_lt heartbeat
    | reap x => rintro ⟨target, k⟩; exact Nat.not_le_of_lt (reap x target) k
    | entry tag => rintro ⟨e, he, -, k⟩; exact Nat.not_le_of_lt (entries e he) k
  · have limit := State.abandonDue_atLimit h
    refine ⟨?_, ?_, ?_, ?_, ?_, fun x hx => ?_, fun tag hx => ?_⟩
    iterate 5 (rintro rfl; exact limit)
    · subst hx; exact limit
    · subst hx; exact limit
  · refine ⟨fun tag c hs hl hc ht hopen => ?_, fun hs => ?_, fun x hs => ?_, fun hs hst => ?_, fun hs hst => ?_, fun hs => ?_, fun hs hp => ?_,
      fun hs hp x hx => ?_⟩
    · subst hs ht
      exact ⟨RequestUnit.completeTag_queue (s.requestLaw_iff.1 hl).1 hc hopen _, rfl, rfl, rfl⟩
    · subst hs
      exact ⟨rfl, fun hi => if_pos hi⟩
    · subst hs
      exact ⟨rfl, rfl⟩
    · subst hs
      have eq : s.abandonSource .join = s.enterListening := if_pos hst
      rw [eq]
      exact ⟨rfl, rfl, rfl⟩
    · subst hs
      have eq : s.abandonSource .leave = s.depart 0#16 := if_pos hst
      rw [eq]
      exact ⟨rfl, Replica.isEmptyForm_of_eq rfl, State.enterEnd_sendList _ .departed, (s.req.abandonWaits_eq 0#16).2, (s.req.abandonWaits_eq 0#16).1⟩
    · subst hs
      exact ⟨rfl, rfl⟩
    · subst hs
      rw [State.abandonSource_of_not_serving (by simp [State.serving, hp])]
      exact ⟨rfl, rfl, rfl⟩
    · subst hs
      rw [State.abandonSource_of_serving (s.serving_iff.2 hp)]
      exact ⟨by simp [State.endTrain, hx], rfl, (State.endTrain_trainOver _).1, (State.endTrain_trainOver _).2.1⟩

end Sys2Proof.Machine
end

section
/-! The table engine: CLAIM, the frames that take out or turn a hold, and the roster frames (R13 to R20, R23 to R25, R33 to R38). -/

namespace Sys2Proof.Machine

/-! ### Table frames from a PRESENT sender -/

section table
variable {r : Replica} {x : Station} (hx : r.present x = true) (ts : Nat)
include hx

theorem Replica.apply_of_present (b : StateBody) : r.apply ts x b =
    { r.effect ts x b with replica := { (r.effect ts x b).replica with sequence := (r.effect ts x b).replica.sequence + 1#16 } } := by
  simp [Replica.apply, Replica.admits, hx]

/-- A table frame that leaves its entry changes nothing but the sequence. -/
theorem Replica.apply_of_unchanged {b : StateBody} {i : Nat} {f : Entry → EntryResult} {code : OutcomeCode} (hb : r.effect ts x b = r.applyEntry i f)
    (hf : f (r.entry i) = (r.entry i).unchanged code) :
    (r.apply ts x b).outcome = some (code, (r.entry i).generation) ∧ (r.apply ts x b).replica = { r with sequence := r.sequence + 1#16 } := by
  rw [Replica.apply_of_present hx, hb, Replica.applyEntry, hf]
  refine ⟨rfl, ?_⟩
  simp only [Entry.unchanged, Replica.setEntry_self]

/-- What a table frame does beyond its entry: the sequence advances, and no other entry and no roster record changes. -/
theorem Replica.apply_of_entry {b : StateBody} {i : Nat} {f : Entry → EntryResult} (hb : r.effect ts x b = r.applyEntry i f) (hi : i < 64) :
    (r.apply ts x b).replica.sequence = r.sequence + 1#16 ∧ (r.apply ts x b).replica.roster = r.roster ∧
    (∀ j : Nat, j ≠ i → (r.apply ts x b).replica.entry j = r.entry j) ∧ (r.apply ts x b).replica.entry i = (f (r.entry i)).entry ∧
    (r.apply ts x b).outcome = some ((f (r.entry i)).code, (f (r.entry i)).entry.generation) ∧
    (r.apply ts x b).grants = (f (r.entry i)).grants.map (fun g => { resource := i, grant := g }) ∧
    (r.apply ts x b).replica.poolInUse = r.poolInUse + (f (r.entry i)).entry.waiters.length - (r.entry i).waiters.length := by
  rw [Replica.apply_of_present hx, hb]
  refine ⟨rfl, rfl, fun j hj => ?_, ?_, rfl, rfl, rfl⟩
  · exact (Replica.entry_setEntry r i j _).trans (if_neg fun h => hj h.1.symm)
  · exact (Replica.entry_setEntry r i i _).trans (if_pos ⟨rfl, hi⟩)

end table

/-! ### CLAIM -/

section claim
variable {e : Entry} {p : Nat} {x : Station} {m : Mode} {w : Bool} {tag : Byte}

theorem Entry.applyClaim_refused (h : e.permit.has x = false ∨ (m = .shared ∧ e.sharedOk = false)) :
    e.applyClaim p x m w tag = e.unchanged .notPermitted :=
  if_pos (by rcases h with h | ⟨rfl, h⟩ <;> simp [h])

variable (permitted : ¬ (e.permit.has x = false ∨ (m = .shared ∧ e.sharedOk = false)))
include permitted

theorem Entry.applyClaim_permitted : e.applyClaim p x m w tag =
    if e.holders.has x || e.waits x then e.unchanged .already
    else if e.grantableNow m then { entry := e.grant x m, code := .granted, grants := [] }
    else if !w then e.unchanged .busy
    else if 48 ≤ p then e.unchanged .poolFull
    else { entry := { e with waiters := e.waiters ++ [{ station := x, mode := m, tag := tag }] }, code := .queued, grants := [] } := by
  refine if_neg ?_
  simpa using permitted

theorem Entry.applyClaim_named (h : e.holders.has x = true ∨ e.waits x = true) : e.applyClaim p x m w tag = e.unchanged .already := by
  rw [Entry.applyClaim_permitted permitted, if_pos (by simpa using h)]

variable (unnamed : ¬ (e.holders.has x = true ∨ e.waits x = true))
include unnamed

theorem Entry.applyClaim_unnamed : e.applyClaim p x m w tag =
    if e.grantableNow m then { entry := e.grant x m, code := .granted, grants := [] }
    else if !w then e.unchanged .busy
    else if 48 ≤ p then e.unchanged .poolFull
    else { entry := { e with waiters := e.waiters ++ [{ station := x, mode := m, tag := tag }] }, code := .queued, grants := [] } := by
  rw [Entry.applyClaim_permitted permitted, if_neg (by simpa using unnamed)]

end claim

/-- Settles O36. -/
theorem claimIsRefusedGrantedOrQueued : Obligations.ClaimIsRefusedGrantedOrQueued := by
  unfold Obligations.ClaimIsRefusedGrantedOrQueued
  intro r ts x res m w tag hx hres
  dsimp only
  have effect : r.effect ts x (.claim res m w tag) = r.applyEntry res.toNat fun e => e.applyClaim r.poolInUse x m w tag := rfl
  obtain ⟨sequence, roster, others, entry, outcome, grants, pool⟩ := Replica.apply_of_entry hx ts effect hres
  have grantable := Entry.grantableNow_iff (e := r.entry res.toNat) m
  have stays : ∀ code, (r.entry res.toNat).applyClaim r.poolInUse x m w tag = (r.entry res.toNat).unchanged code →
      (r.apply ts x (.claim res m w tag)).outcome = some (code, (r.entry res.toNat).generation) ∧
      (r.apply ts x (.claim res m w tag)).replica = { r with sequence := r.sequence + 1#16 } :=
    fun code h => Replica.apply_of_unchanged hx ts effect h
  refine ⟨?_, sequence, roster, others, fun hr => stays _ (Entry.applyClaim_refused hr), fun hr hn => stays _ (Entry.applyClaim_named hr hn),
    fun hr hn hg => ?_, fun hr hn hg hw => stays _ ?_, fun hr hn hg hw hp => stays _ ?_, fun hr hn hg hw hp => ?_⟩
  · rw [grants, Entry.applyClaim_grants]; rfl
  · have granted : (r.entry res.toNat).applyClaim r.poolInUse x m w tag = { entry := (r.entry res.toNat).grant x m, code := .granted, grants := [] } := by
      rw [Entry.applyClaim_unnamed hr hn, if_pos (grantable.2 hg)]
    rw [outcome, pool, entry, granted]
    refine ⟨rfl, Nat.add_sub_cancel .., ?_⟩
    cases m <;> rfl
  · rw [Entry.applyClaim_unnamed hr hn, if_neg (fun h => hg (grantable.1 h)), hw]; rfl
  · rw [Entry.applyClaim_unnamed hr hn, if_neg (fun h => hg (grantable.1 h)), hw, if_neg (by decide), if_pos hp]
  · have queued : (r.entry res.toNat).applyClaim r.poolInUse x m w tag =
        { entry := { r.entry res.toNat with waiters := (r.entry res.toNat).waiters ++ [{ station := x, mode := m, tag := tag }] },
          code := .queued, grants := [] } := by
      rw [Entry.applyClaim_unnamed hr hn, if_neg (fun h => hg (grantable.1 h)), hw, if_neg (by decide), if_neg (by omega)]
    rw [outcome, pool, entry, queued]
    refine ⟨rfl, ?_, rfl⟩
    rw [List.length_append, List.length_singleton]
    omega

/-! ### RELEASE, WITHDRAW, DOWNGRADE -/

theorem Entry.dropHolder_of_holder {e : Entry} {x : Station} (h : e.holders.has x = true) : e.dropHolder x =
    { e with holders := e.holders.dropStation x, state := if e.holders.dropStation x = 0#16 then .free else e.state } := if_pos h

/-- GENERATION moves by the grants of a promotion (R21). -/
theorem Entry.promote_generation (e : Entry) : e.promote.1.generation = e.generation + BitVec.ofNat 16 e.promote.2.length := promoteFrom_generation ..

theorem Entry.unchanged_generation (e : Entry) (code : OutcomeCode) :
    (e.unchanged code).entry.generation = e.generation + BitVec.ofNat 16 (e.unchanged code).grants.length := (BitVec.add_zero _).symm

section generation
variable (e : Entry) (x : Station)

theorem Entry.dropHolder_generation : (e.dropHolder x).generation = e.generation := by unfold Entry.dropHolder; split <;> rfl

theorem Entry.applyRelease_generation : (e.applyRelease x).entry.generation = e.generation + BitVec.ofNat 16 (e.applyRelease x).grants.length := by
  cases h : e.holders.has x with
  | true => rw [Entry.applyRelease_of_holder h, ← e.dropHolder_generation x]; exact Entry.promote_generation _
  | false => rw [Entry.applyRelease_of_not_holder h]; exact e.unchanged_generation _

theorem Entry.applyWithdraw_generation : (e.applyWithdraw x).entry.generation = e.generation + BitVec.ofNat 16 (e.applyWithdraw x).grants.length := by
  cases h : e.waits x with
  | true => rw [Entry.applyWithdraw_of_waiter h]; exact (e.dropWaiter x).promote_generation
  | false => rw [Entry.applyWithdraw_of_not_waiter h]; exact e.unchanged_generation _

theorem Entry.applyDowngrade_generation : (e.applyDowngrade x).entry.generation = e.generation + BitVec.ofNat 16 (e.applyDowngrade x).grants.length := by
  by_cases h : e.state ≠ .exclusive ∨ e.holders.has x = false
  · rw [Entry.applyDowngrade_of_not_exclusive h]; exact e.unchanged_generation _
  · simp only [not_or, ne_eq, not_not, Bool.not_eq_false] at h
    cases ho : e.sharedOk with
    | true => rw [Entry.applyDowngrade_of_holder h.1 h.2 ho]; exact Entry.promote_generation { e with state := .shared }
    | false => rw [Entry.applyDowngrade_of_not_sharedOk h.1 h.2 ho]; exact e.unchanged_generation _

end generation

/-- Settles O38. -/
theorem releaseWithdrawAndDowngradeOutcomes : Obligations.ReleaseWithdrawAndDowngradeOutcomes := by
  unfold Obligations.ReleaseWithdrawAndDowngradeOutcomes
  intro r ts x res hx hres
  dsimp only
  have release : r.effect ts x (.release res) = r.applyEntry res.toNat fun e => e.applyRelease x := rfl
  have withdraw : r.effect ts x (.withdraw res) = r.applyEntry res.toNat fun e => e.applyWithdraw x := rfl
  have downgrade : r.effect ts x (.downgrade res) = r.applyEntry res.toNat fun e => e.applyDowngrade x := rfl
  obtain ⟨seqR, rosterR, othersR, entryR, outcomeR, grantsR, -⟩ := Replica.apply_of_entry hx ts release hres
  obtain ⟨seqW, rosterW, othersW, entryW, outcomeW, grantsW, -⟩ := Replica.apply_of_entry hx ts withdraw hres
  obtain ⟨seqD, rosterD, othersD, entryD, outcomeD, grantsD, -⟩ := Replica.apply_of_entry hx ts downgrade hres
  refine ⟨fun b hb => ?_, fun h => Replica.apply_of_unchanged hx ts release (Entry.applyRelease_of_not_holder h), fun h => ?_,
    fun h => Replica.apply_of_unchanged hx ts withdraw (Entry.applyWithdraw_of_not_waiter h), fun h => ?_,
    fun h => Replica.apply_of_unchanged hx ts downgrade (Entry.applyDowngrade_of_not_exclusive h),
    fun hs h ho => Replica.apply_of_unchanged hx ts downgrade (Entry.applyDowngrade_of_not_sharedOk hs h ho), fun hs h ho => ?_⟩
  · rcases hb with rfl | rfl | rfl
    · refine ⟨seqR, rosterR, othersR, ?_⟩
      rw [entryR, grantsR, List.length_map]
      exact Entry.applyRelease_generation ..
    · refine ⟨seqW, rosterW, othersW, ?_⟩
      rw [entryW, grantsW, List.length_map]
      exact Entry.applyWithdraw_generation ..
    · refine ⟨seqD, rosterD, othersD, ?_⟩
      rw [entryD, grantsD, List.length_map]
      exact Entry.applyDowngrade_generation ..
  · rw [outcomeR, entryR, Entry.applyRelease_of_holder h, Entry.dropHolder_of_holder h]
    exact ⟨rfl, rfl⟩
  · rw [outcomeW, entryW, Entry.applyWithdraw_of_waiter h]
    exact ⟨rfl, rfl⟩
  · rw [outcomeD, entryD, Entry.applyDowngrade_of_holder hs h ho]
    exact ⟨rfl, rfl⟩

/-! ### Roster frames -/

theorem StationSet.dropStation_of_not_has {s : StationSet} {x : Station} (h : s.has x = false) : s.dropStation x = s := by
  refine StationSet.ext_has fun y => ?_
  rw [StationSet.has_dropStation]
  by_cases hy : y = x
  · simp [hy, h]
  · simp [hy]

/-- An entry without a station's hold and record, before promotion (R23). -/
theorem Entry.without_eq (e : Entry) (x : Station) : (e.dropHolder x).dropWaiter x =
    { e with holders := e.holders.dropStation x, waiters := e.waiters.filter fun w => w.station != x,
             state := if e.holders.has x = true ∧ e.holders.dropStation x = 0#16 then .free else e.state } := by
  cases h : e.holders.has x with
  | true => rw [Entry.dropHolder_of_holder h]; simp [Entry.dropWaiter]
  | false => rw [StationSet.dropStation_of_not_has h]; simp [Entry.dropHolder, Entry.dropWaiter, h]

/-- A frame that removes a station. -/
def Removes (r : Replica) (x t : Station) (b : StateBody) : Prop :=
  (b = .join ∧ t = x) ∨ (b = .leave ∧ t = x) ∨ (b = .reap (BitVec.ofNat 8 t.val) ∧ r.present t = true)

theorem Replica.effect_of_removes {r : Replica} {x t : Station} {b : StateBody} (hx : r.present x = true) (h : Removes r x t b) (ts : Nat) :
    ∃ q : Replica, (∀ i, q.entry i = r.entry i) ∧ q.poolInUse = r.poolInUse ∧ r.effect ts x b = q.removeStation ts t := by
  rcases h with ⟨rfl, rfl⟩ | ⟨rfl, rfl⟩ | ⟨rfl, ht⟩
  · exact ⟨r, fun _ => rfl, rfl, if_pos hx⟩
  · exact ⟨r.setMembership t .absent, r.entry_setMembership t _, rfl, rfl⟩
  · refine ⟨r.setMembership t .lapsed, r.entry_setMembership t _, rfl, ?_⟩
    simp only [Replica.effect, reapTarget_ofNat, ht, if_true]

theorem Replica.removeStation_outcome (r : Replica) (ts : Nat) (x : Station) : (r.removeStation ts x).outcome = none := rfl

theorem Replica.removeStation_grants (r : Replica) (ts : Nat) (x : Station) : (r.removeStation ts x).grants =
    (List.range ts).flatMap fun i => ((r.entry i).remove x).2.map fun g => { resource := i, grant := g } := rfl

theorem Replica.removeStation_poolInUse (r : Replica) (ts : Nat) (x : Station) : (r.removeStation ts x).replica.poolInUse =
    r.poolInUse - ((List.range ts).map fun i => (r.entry i).waiters.length - ((r.entry i).remove x).1.waiters.length).sum := rfl

/-- What a frame that removes a station does. -/
theorem Replica.apply_of_removes {r : Replica} {x t : Station} {b : StateBody} (hx : r.present x = true) (h : Removes r x t b) (ts : Nat) :
    (∀ i, i < ts → (r.apply ts x b).replica.entry i = ((r.entry i).remove t).1) ∧ (∀ i, ts ≤ i → (r.apply ts x b).replica.entry i = r.entry i) ∧
    (r.apply ts x b).grants = ((List.range ts).flatMap fun i => ((r.entry i).remove t).2.map fun g => { resource := i, grant := g }) ∧
    (r.apply ts x b).outcome = none ∧
    (r.apply ts x b).replica.poolInUse =
      r.poolInUse - ((List.range ts).map fun i => (r.entry i).waiters.length - ((r.entry i).remove t).1.waiters.length).sum := by
  obtain ⟨q, entry, pool, effect⟩ := Replica.effect_of_removes hx h ts
  have entry_eq : ∀ i, (r.apply ts x b).replica.entry i = (q.removeStation ts t).replica.entry i := fun i => by
    rw [Replica.apply_of_present hx, effect]
    simp only [Replica.entry]
  refine ⟨fun i hi => ?_, fun i hi => ?_, ?_, ?_, ?_⟩
  · rw [entry_eq, Replica.entry_removeStation_of_lt q t hi, entry]
  · rw [entry_eq, Replica.entry_removeStation, if_neg (by omega), entry]
  · rw [Replica.apply_of_present hx, effect]
    simp only [Replica.removeStation_grants, entry]
  · rw [Replica.apply_of_present hx, effect]
    simp only [Replica.removeStation_outcome]
  · rw [Replica.apply_of_present hx, effect]
    simp only [Replica.removeStation_poolInUse, entry, pool]

/-- Grants gathered resource by resource come in ascending order of resource (R23). -/
theorem TableGrant.range_ordered (grants : Nat → List Grant) (n : Nat) :
    (((List.range n).flatMap fun i => (grants i).map fun g => ({ resource := i, grant := g } : TableGrant)).map TableGrant.resource).Pairwise (· ≤ ·) := by
  rw [List.map_flatMap, List.pairwise_flatMap]
  refine ⟨fun i _ => ?_, List.pairwise_lt_range.imp fun {i j} hij a ha b hb => ?_⟩
  · simp [List.pairwise_iff_getElem]
  · have at_index : ∀ {k v : Nat}, v ∈ List.map TableGrant.resource ((grants k).map fun g => ({ resource := k, grant := g } : TableGrant)) → v = k := by simp
    rw [at_index ha, at_index hb]
    exact hij.le

/-- Settles O39. -/
theorem rosterFramesFollowTheRosterTable : Obligations.RosterFramesFollowTheRosterTable := by
  unfold Obligations.RosterFramesFollowTheRosterTable
  have noOp : ∀ (r : Replica) (ts : Nat) (x : Station) (b : StateBody), r.present x = true → r.effect ts x b = r.noEffect →
      r.apply ts x b = { replica := { r with sequence := r.sequence + 1#16 }, outcome := none, grants := [] } := fun r ts x b hx h => by
    rw [Replica.apply_of_present hx, h]; rfl
  refine ⟨fun r ts x b hb hx => ?_, fun r ts x y => ?_, fun r ts x b => Replica.apply_sequence_valid .., fun r ts x hx => ?_,
    fun r ts x t hx ht => noOp r ts x _ hx ?_, fun r ts x y hx => ⟨?_, noOp r ts x _ hx rfl, fun t => ?_, fun target h => noOp r ts x _ hx ?_⟩,
    fun r ts x t b hx h => ?_⟩
  · simp [Replica.apply, Replica.admits, hb, hx, Replica.noEffect]
  · rw [Replica.apply_membership, if_pos (by simp [Replica.admits]), Replica.effect_membership]
  · have joins : r.apply ts x .join = { replica := { r.setMembership x .present with sequence := r.sequence + 1#16 }, outcome := none, grants := [] } := by
      simp [Replica.apply, Replica.admits, Replica.effect, hx, Replica.noEffect]
    rw [joins]
    exact ⟨fun i => rfl, rfl, rfl⟩
  · simp [Replica.effect, reapTarget_ofNat, ht]
  · rw [Replica.apply_membership, if_pos (by simp [Replica.admits, hx]), Replica.effect_membership]
  · rw [Replica.apply_membership, if_pos (by simp [Replica.admits, hx]), Replica.effect_membership]
    simp only [reapTarget_ofNat]
    by_cases hy : y = t
    · subst hy; simp
    · simp [hy, Ne.symm hy]
  · have none : reapTarget target = none := by simp [reapTarget, Nat.not_lt.2 h]
    simp [Replica.effect, none]
  · obtain ⟨removed, outside, grants, outcome, pool⟩ := Replica.apply_of_removes hx h ts
    refine ⟨fun i hi => ?_, outside, fun without hw => ?_, outcome, ?_, ?_⟩
    · have gone : ¬ ((r.apply ts x b).replica.entry i).Names t := fun hn => (Entry.remove_names (removed i hi ▸ hn)).2 rfl
      exact ⟨Bool.eq_false_iff.2 fun k => gone (.inl k), Bool.eq_false_iff.2 fun k => gone (.inr k)⟩
    · have removal : ∀ e : Entry, e.remove t = (without e).promote := fun e => by
        rw [hw]; exact congrArg Entry.promote (e.without_eq t)
      exact ⟨fun i hi => by rw [removed i hi, removal], by simp only [grants, removal]⟩
    · rw [pool]
      refine congrArg (fun l : List Nat => r.poolInUse - l.sum) (List.map_congr_left fun i hi => ?_)
      rw [removed i (List.mem_range.1 hi)]
    · rw [grants]
      exact TableGrant.range_ordered _ ts

end Sys2Proof.Machine
end

section
/-! Frames as bits (R55, R56, R62), and the frames that are not received (R63 to R65, R51). -/

namespace Sys2Proof.Machine

/-! ### Fields as bits -/

theorem bitsToNat_concat (bits : List Bool) (b : Bool) : bitsToNat (bits ++ [b]) = 2 * bitsToNat bits + b.toNat := by
  simp [bitsToNat, List.foldl_append]

/-- The first k bits of a field are its value without its last bits. -/
theorem bitsToNat_fieldBits_take {n : Nat} (v : BitVec n) : ∀ k, k ≤ n → bitsToNat ((List.range k).map fun i => v.getMsbD i) = v.toNat / 2 ^ (n - k)
  | 0, _ => (Nat.div_eq_of_lt v.isLt).symm
  | k + 1, hk => by
    have step : n - k = n - (k + 1) + 1 := by omega
    have bit : (v.getMsbD k).toNat = v.toNat / 2 ^ (n - (k + 1)) % 2 := by
      rw [BitVec.getMsbD_eq_getLsbD, BitVec.getLsbD, ← Nat.toNat_testBit, show n - 1 - k = n - (k + 1) by omega]
      simp [Nat.lt_of_succ_le hk]
    rw [List.range_succ, List.map_append, List.map_singleton, bitsToNat_concat, bitsToNat_fieldBits_take v k (Nat.le_of_succ_le hk), bit, step,
      Nat.pow_succ, ← Nat.div_div_eq_div_mul]
    omega

@[simp] theorem bitsToNat_fieldBits {n : Nat} (v : BitVec n) : bitsToNat (fieldBits v) = v.toNat := by
  rw [fieldBits, bitsToNat_fieldBits_take v n le_rfl, Nat.sub_self, Nat.pow_zero, Nat.div_one]

theorem bytesBits_cons (b : Byte) (bytes : List Byte) : bytesBits (b :: bytes) = fieldBits b ++ bytesBits bytes := rfl

theorem bytesBits_append (a b : List Byte) : bytesBits (a ++ b) = bytesBits a ++ bytesBits b := List.flatMap_append

theorem bytesBits_length : ∀ bytes : List Byte, (bytesBits bytes).length = 8 * bytes.length
  | [] => rfl
  | b :: bytes => by
    rw [bytesBits_cons, List.length_append, fieldBits_length, bytesBits_length bytes, List.length_cons]
    omega

theorem bitsToBytes_bytesBits (rest : List Bool) : ∀ bytes : List Byte, bitsToBytes bytes.length (bytesBits bytes ++ rest) = bytes
  | [] => rfl
  | b :: bytes => by
    have len : (fieldBits b).length = 8 := fieldBits_length b
    rw [bytesBits_cons, List.append_assoc, List.length_cons, bitsToBytes, List.take_left' len, List.drop_left' len, bitsToBytes_bytesBits rest bytes,
      bitsToNat_fieldBits, BitVec.ofNat_toNat, BitVec.setWidth_eq]

/-! ### The data slots of a frame (Table 3-2) -/

theorem frameBits_length (f : RawFrame) : (frameBits f).length = 33 + 8 * f.body.length := by
  simp only [frameBits, List.length_append, fieldBits_length, bytesBits_length, List.length_singleton]

theorem dataSlots_length (f : RawFrame) : (dataSlots f).length = 49 + 8 * f.body.length := by
  rw [dataSlots, List.length_append, frameBits_length, fieldBits_length]
  omega

/-- LEN stands in the six slots from the 28th. -/
theorem dataSlots_lenField (f : RawFrame) : ((dataSlots f).drop 27).take 6 = fieldBits f.len := by
  have head : dataSlots f = (fieldBits f.cls ++ fieldBits f.station ++ fieldBits f.kind ++ [f.cont] ++ fieldBits f.seq) ++
      (fieldBits f.len ++ (bytesBits f.body ++ fieldBits f.check)) := by simp only [dataSlots, frameBits, List.append_assoc]
  rw [head, List.drop_left' (by simp only [List.length_append, fieldBits_length, List.length_singleton]), List.take_left' (fieldBits_length _)]

/-- A field of a frame, read back from its place. -/
theorem field_readBack {n m : Nat} {slots a b : List Bool} (v : BitVec n) (h : slots = a ++ (fieldBits v ++ b)) (ha : a.length = m) :
    BitVec.ofNat n (bitsToNat ((slots.drop m).take n)) = v := by
  rw [h, List.drop_left' ha, List.take_left' (fieldBits_length v), bitsToNat_fieldBits, BitVec.ofNat_toNat, BitVec.setWidth_eq]

theorem dataSlots_readBack {f : RawFrame} (h : f.body.length = f.len.toNat) : readFrame (dataSlots f) = some f := by
  have len : lenSlots (dataSlots f) = f.len.toNat := by rw [lenSlots, dataSlots_lenField, bitsToNat_fieldBits]
  have slots : dataSlots f = fieldBits f.cls ++ (fieldBits f.station ++ (fieldBits f.kind ++ ([f.cont] ++ (fieldBits f.seq ++ (fieldBits f.len ++
      (bytesBits f.body ++ fieldBits f.check)))))) := by simp only [dataSlots, frameBits, List.append_assoc]
  have cls := field_readBack (m := 0) (a := []) f.cls slots rfl
  have station := field_readBack (m := 2) f.station slots (fieldBits_length _)
  have kind := field_readBack (m := 6) (slots := dataSlots f) (a := fieldBits f.cls ++ fieldBits f.station) f.kind (by rw [slots, List.append_assoc])
    (by simp only [List.length_append, fieldBits_length])
  have cont : ((dataSlots f).drop 10).headD false = f.cont := by
    rw [slots, ← List.append_assoc, ← List.append_assoc, List.drop_left' (by simp only [List.length_append, fieldBits_length])]
    rfl
  have seq := field_readBack (m := 11) (slots := dataSlots f) (a := fieldBits f.cls ++ fieldBits f.station ++ fieldBits f.kind ++ [f.cont]) f.seq
    (by rw [slots]; simp only [List.append_assoc]; rfl) (by simp only [List.length_append, fieldBits_length, List.length_singleton])
  have body : (dataSlots f).drop 33 = bytesBits f.body ++ fieldBits f.check := by
    rw [slots, ← List.append_assoc, ← List.append_assoc, ← List.append_assoc, ← List.append_assoc, ← List.append_assoc,
      List.drop_left' (by simp only [List.length_append, fieldBits_length, List.length_singleton])]
  have check : (dataSlots f).drop (33 + 8 * f.len.toNat) = fieldBits f.check := by
    rw [dataSlots, List.drop_left' (by rw [frameBits_length, h])]
  rw [List.drop_zero] at cls
  simp only [readFrame, len, dataSlots_length, h, if_true, cls, station, kind, cont, seq, body, check, bitsToNat_fieldBits, BitVec.ofNat_toNat,
    BitVec.setWidth_eq]
  rw [← h, bitsToBytes_bytesBits]

/-! ### The check accumulator of a truncated frame -/

/-- The slots that have come of a frame cut off before its last CHECK slot, CHECK's own left out. -/
theorem coveredSlots_dataSlots_take {f : RawFrame} (h : f.body.length = f.len.toNat) (n : Nat) :
    coveredSlots ((dataSlots f).take n) = (frameBits f).take n := by
  have bits : (frameBits f).length = 33 + 8 * f.len.toNat := by rw [frameBits_length, h]
  have all : (dataSlots f).length = 49 + 8 * f.len.toNat := by rw [dataSlots_length, h]
  unfold coveredSlots
  by_cases short : n < 33
  · rw [if_pos (by rw [List.length_take]; omega), dataSlots, List.take_append_of_le_length (by omega)]
  · have len : lenSlots ((dataSlots f).take n) = f.len.toNat := by
      rw [lenSlots, List.drop_take, List.take_take, Nat.min_eq_left (by omega), dataSlots_lenField, bitsToNat_fieldBits]
    rw [if_neg (by rw [List.length_take]; omega), len, List.take_take, Nat.min_comm, ← List.take_take, dataSlots, List.take_left' bits]

/-! ### Commands of frames not received -/

theorem State.active_of_ne {s : State} (h : s.ctl.state ≠ .offline) : s.active = true := by simp [State.active, h]

/-- A state that answers REJECT is not MUTED. -/
theorem StationState.not_muted_of_rejects {st : StationState} (h : st.rejects = true) : st ≠ .muted := by rintro rfl; cases h

/-- The counts after a frame with a format error or an overrun (R99, R101). -/
theorem State.countBad_ctl {s : State} {rejected : Bool} (h : rejected = true → s.ctl.state ≠ .muted) : (s.countBad rejected).ctl =
    { s.ctl with rejectCount := if rejected = true then min 16 (s.ctl.rejectCount + 1) else s.ctl.rejectCount,
                 cleanCount := if s.ctl.state = .muted then 0 else s.ctl.cleanCount } := by
  unfold State.countBad
  by_cases hm : s.ctl.state = .muted
  · rw [if_pos hm, if_pos hm, if_neg fun k => h k hm]
  · rw [if_neg hm, if_neg hm]
    cases rejected <;> rfl

/-- What a frame that is not received leaves of the state. -/
def State.Discards (s t : State) (answer : Option AnswerSlot) (rejects : Bool) : Prop :=
  t.replica = s.replica ∧ t.lease = s.lease ∧ t.sync = s.sync ∧ t.req = s.req ∧ t.port = s.port ∧ t.cont.hold = s.cont.hold ∧
  t.ctl.state = s.ctl.state ∧ t.line.idleCount = 0 ∧ t.line.rx = .empty ∧
  t.line.dominantLeft = (if s.line.rx.isFilling = true ∨ s.line.overrun = true then s.line.dominantLeft else 0) ∧
  t.line.answer = answer ∧
  t.ctl.rejectCount = (if rejects = true then min 16 (s.ctl.rejectCount + 1) else s.ctl.rejectCount) ∧
  t.ctl.cleanCount = (if s.ctl.state = .muted then 0 else s.ctl.cleanCount)

theorem State.discards {s : State} {rejected : Bool} (h : rejected = true → s.ctl.state ≠ .muted) {cont : ContentionUnit} (hc : cont.hold = s.cont.hold)
    (acc : Word) (answer : Option AnswerSlot) :
    s.Discards ((({ s with cont := cont } : State).frameEnds .empty acc answer).countBad rejected) answer rejected := by
  have ctl := State.countBad_ctl (s := ({ s with cont := cont } : State).frameEnds .empty acc answer) h
  refine ⟨by simp, by simp, by simp, by simp, by simp, by simpa using hc, by rw [ctl]; rfl, by rw [State.countBad_line]; rfl, by rw [State.countBad_line]; rfl, ?_, by rw [State.countBad_line]; rfl,
    by rw [ctl]; rfl, by rw [ctl]; rfl⟩
  rw [State.countBad_line]
  simp only [State.frameEnds, LineUnit.inFrame, Bool.or_eq_true]

theorem State.badFrame_discards (s : State) (acc : Word) :
    s.Discards (s.badFrame acc) (if s.ctl.state.rejects then some .reject else none) s.ctl.state.rejects :=
  State.discards StationState.not_muted_of_rejects s.cont.loseArbitration_hold acc _

theorem exec_formatError {s : State} (hs : s.canHear = true) {f : RawFrame} (hf : frameGood s.tableSize f = false) :
    exec (.formatError f) s = .next (s.badFrame (frameCheck f)) := by
  simp [exec, execFormatError, hs, hf]

theorem exec_heard_bad {c : Instr} {f : HeardFrame} (hc : Instr.heardFrame c = some f) {s : State} (hs : s.canHear = true)
    (hf : s.wellFormedHere f = false) : exec c s = .next (s.badFrame (frameCheck (heardRaw f.kind f.head f.bytes))) := by
  rw [exec_heard hc, State.receive_bad _ _ _ _ _ _ _ hs hf]

theorem lastCheckCame_eq_false {bits : List Bool} (h : bits.length < 33 ∨ bits.length < 49 + 8 * bitsToNat ((bits.drop 27).take 6)) :
    lastCheckCame bits = false := by
  unfold lastCheckCame lenSlots
  simp only [Bool.and_eq_false_iff, decide_eq_false_iff_not]
  omega

theorem exec_truncation {s : State} (hs : s.ctl.state ≠ .offline) (ho : s.sendingOwn = false) {bits : List Bool} (hb : lastCheckCame bits = false) :
    exec (.truncation bits) s = .next ((({ s with cont := s.cont.loseArbitration } : State).frameEnds .empty (slotsCheck bits)
      (if s.ctl.state.rejects then some .reject else none)).countBad false) := by
  simp [exec, execTruncation, State.active_of_ne hs, ho, hb]

theorem exec_receiveOverrun {s : State} (hs : s.ctl.state ≠ .offline) (hr : s.line.rx.isHeld = true) (f : RawFrame) :
    exec (.receiveOverrun f) s = .next ((s.frameEnds .empty (frameCheck f) (if s.ctl.state.applies then some .reject else none)).countBad
      s.ctl.state.applies) := by
  simp [exec, execReceiveOverrun, State.active_of_ne hs, hr]

theorem exec_glitch_frame {s : State} (hs : s.ctl.state ≠ .offline) (hf : s.frameInProgress = true) (slots : Nat) :
    exec (.glitch slots) s = .next { s with line := { s.line with dominantLeft := slots - 3 } } := by
  simp [exec, execGlitch, State.active_of_ne hs, hf, cutSlots]

theorem exec_glitch_short {s : State} (hs : s.ctl.state ≠ .offline) (hf : s.frameInProgress = false) {slots : Nat} (h : slots < 2) :
    exec (.glitch slots) s = .next { s with line := { s.line with idleCount := 0, dominantLeft := 0 } } := by
  simp [exec, execGlitch, State.active_of_ne hs, hf, h]

theorem exec_glitch_mark {s : State} (hs : s.ctl.state ≠ .offline) (hf : s.frameInProgress = false) {slots : Nat} (h : 2 ≤ slots) :
    exec (.glitch slots) s = .next
      { s with line := { (if s.line.rx.isHeld then s.line.overrunMark else s.line.startMark) with dominantLeft := slots - 6 } } := by
  simp [exec, execGlitch, State.active_of_ne hs, hf, Nat.not_lt.2 h, cutSlots, markSlots]

/-- Settles O46. -/
theorem framesNotReceivedDeliverNothing : Obligations.FramesNotReceivedDeliverNothing := by
  unfold Obligations.FramesNotReceivedDeliverNothing
  refine ⟨fun c s hs bad => ?_, fun bits s hs ho hb => ?_, fun bits s h33 h49 => ?_, fun f s hs hr => ?_, fun slots s hs => ?_,
    fun slots s hs hf => exec_glitch_frame hs hf slots, fun slots s hs hf => ⟨exec_glitch_short hs hf, fun h2 hrx => ?_, fun h2 f hrx => ?_⟩⟩
  · rcases bad with ⟨f, rfl, hf⟩ | ⟨f, hc, hf⟩
    · exact ⟨_, exec_formatError hs hf, s.badFrame_discards _⟩
    · exact ⟨_, exec_heard_bad hc hs hf, s.badFrame_discards _⟩
  · obtain ⟨replica, lease, sync, req, port, hold, state, idle, rx, left, answer, rejects, clean⟩ :=
      State.discards (s := s) (rejected := false) (by simp) s.cont.loseArbitration_hold (slotsCheck bits) (if s.ctl.state.rejects then some .reject else none)
    refine ⟨_, exec_truncation hs ho (lastCheckCame_eq_false hb), replica, lease, sync, req, port, hold, state, idle, rx, left, answer, rejects, clean,
      fun f n hf hbits => ?_⟩
    rw [State.countBad_line, hbits]
    exact congrArg (checkBits checkPreset) (coveredSlots_dataSlots_take hf n)
  · have came : lastCheckCame bits = true := by simp [lastCheckCame, lenSlots, h33, h49]
    simp [exec, execTruncation, came]
  · have not_muted : s.ctl.state.applies = true → s.ctl.state ≠ .muted := fun h => StationState.not_muted_of_rejects (by simp [StationState.rejects, h])
    obtain ⟨replica, lease, sync, req, port, -, state, idle, rx, left, answer, rejects, clean⟩ :=
      State.discards not_muted (cont := s.cont) rfl (frameCheck f) (if s.ctl.state.applies then some .reject else none)
    refine ⟨_, exec_receiveOverrun hs hr f, replica, lease, sync, req, port, by simp, state, idle, rx, left, ?_, ?_, clean⟩
    · exact answer.trans (by simp only [StationState.applies_iff])
    · exact rejects.trans (by simp only [StationState.applies_iff])
  · simp [exec, execGlitch, State.active, hs]
  · have idle : s.frameInProgress = false := hf
    rw [State.frameInProgress, Bool.or_eq_false_iff, LineUnit.inFrame, Bool.or_eq_false_iff] at idle
    rw [exec_glitch_mark hs hf h2, hrx]
    simp [RxBuffer.isHeld, LineUnit.startMark, idle.2.2, checkPreset]
  · rw [exec_glitch_mark hs hf h2, hrx]
    simp [RxBuffer.isHeld, LineUnit.overrunMark, checkPreset]

end Sys2Proof.Machine
end

section
/-! Snapshot bodies read back (Tables 3-5 and 3-6, R60, R61). -/

namespace Sys2Proof.Machine

/-! ### Parts of a byte -/

/-- The low part of a pair of fields. -/
theorem setWidth_append {n m : Nat} (v : BitVec n) (w : BitVec m) : (v ++ w).setWidth m = w := by
  refine BitVec.eq_of_getLsbD_eq fun i hi => ?_
  simp [BitVec.getLsbD_append, hi]

/-- The high part of a pair of fields. -/
theorem shift_append {n m : Nat} (v : BitVec n) (w : BitVec m) : ((v ++ w) >>> m).setWidth n = v := by
  refine BitVec.eq_of_getLsbD_eq fun i hi => ?_
  simp [BitVec.getLsbD_append, hi]

theorem HoldState.ofCode_code (st : HoldState) : HoldState.ofCode st.code = some st := by cases st <;> rfl

theorem Membership.ofCode_code (m : Membership) : Membership.ofCode m.code = some m := by cases m <;> rfl

/-! ### Waiters -/

theorem stationOf_stationBits (x : Station) : stationOf (stationBits x) = x := by
  apply Fin.ext
  have := x.isLt
  simp [stationOf, stationBits]

theorem Waiter.bytes_length (w : Waiter) : w.bytes.length = 2 := rfl

theorem parseWaiters_bytes : ∀ ws : List Waiter, parseWaiters (ws.flatMap Waiter.bytes) = ws
  | [] => rfl
  | w :: ws => by
    obtain ⟨station, mode, tag⟩ := w
    have bytes : ((⟨station, mode, tag⟩ : Waiter) :: ws).flatMap Waiter.bytes =
        (stationBits station ++ (if mode = .shared then 0x8#4 else 0x0#4)) :: tag :: ws.flatMap Waiter.bytes := rfl
    have low : ∀ mode : BitVec 4, (stationBits station ++ mode).getLsbD 3 = mode.getLsbD 3 := fun mode =>
      (BitVec.getLsbD_append ..).trans (if_pos (by decide))
    have turn : (stationBits station ++ (if mode = .shared then 0x8#4 else 0x0#4)).getLsbD 3 = decide (mode = .shared) := by
      rw [low]
      cases mode <;> rfl
    rw [bytes, parseWaiters, shift_append, stationOf_stationBits, parseWaiters_bytes ws, turn]
    cases mode <;> rfl

/-! ### Records -/

/-- A body is read record by record, whatever the bound on their number, once it is no less than the bytes. -/
theorem parseRecords_eq : ∀ (m n : Nat) (body : List Byte), body.length ≤ m → body.length ≤ n → parseRecords m body = parseRecords n body
  | 0, n, [], _, _ => by simp [parseRecords]
  | m + 1, 0, [], _, _ => by simp [parseRecords]
  | m + 1, n + 1, body, hm, hn => by
    have rest : ∀ k (r : List Byte), body.length = r.length + 6 → parseRecords m (r.drop k) = parseRecords n (r.drop k) := fun k r hr =>
      parseRecords_eq m n _ (by rw [List.length_drop]; omega) (by rw [List.length_drop]; omega)
    match body with
    | [] => rfl
    | [_] | [_, _] | [_, _, _] | [_, _, _, _] | [_, _, _, _, _] => rfl
    | index :: sw :: h1 :: h0 :: g1 :: g0 :: r => simp only [parseRecords, rest _ r rfl]

/-- A body is read record by record (R60). -/
theorem recordsOf_cons (index sw h1 h0 g1 g0 : Byte) (rest : List Byte) : recordsOf (index :: sw :: h1 :: h0 :: g1 :: g0 :: rest) =
    if rest.length < 2 * (sw.toNat % 16) then none
    else (HoldState.ofCode ((sw >>> 6).setWidth 2)).bind fun st => (recordsOf (rest.drop (2 * (sw.toNat % 16)))).map fun more =>
      { index := index, claim := { state := st, holders := wordOf h1 h0, generation := wordOf g1 g0,
                                   waiters := parseWaiters (rest.take (2 * (sw.toNat % 16))) } } :: more := by
  have fuel : parseRecords (rest.length + 5) (rest.drop (2 * (sw.toNat % 16))) = recordsOf (rest.drop (2 * (sw.toNat % 16))) :=
    parseRecords_eq _ _ _ (by rw [List.length_drop]; omega) le_rfl
  have count : (sw.setWidth 4).toNat = sw.toNat % 16 := BitVec.toNat_setWidth ..
  simp only [recordsOf, List.length_cons, parseRecords, count] at fuel ⊢
  rw [fuel]
  split
  · rfl
  · cases HoldState.ofCode ((sw >>> 6).setWidth 2) with
    | none => rfl
    | some st => cases parseRecords (rest.drop (2 * (sw.toNat % 16))).length (rest.drop (2 * (sw.toNat % 16))) <;> rfl

theorem recordsOf_short {body : List Byte} (h : 1 ≤ body.length) (h6 : body.length < 6) : recordsOf body = none := by
  match body, h, h6 with
  | [_], _, _ | [_, _], _, _ | [_, _, _], _, _ | [_, _, _, _], _, _ | [_, _, _, _, _], _, _ => rfl

theorem HoldState.ofCode_three {c : BitVec 2} (h : c.toNat = 3) : HoldState.ofCode c = none := by simp [HoldState.ofCode, h]

/-- The two most significant bits of a byte. -/
theorem topBits_toNat (b : Byte) : ((b >>> 6).setWidth 2).toNat = b.toNat / 64 := by
  have := b.isLt
  rw [BitVec.toNat_setWidth, BitVec.toNat_ushiftRight, Nat.shiftRight_eq_div_pow]
  omega

/-- A record formed from a claim state is read back, with what follows it. -/
theorem recordsOf_recordBytes (index : Byte) {c : ClaimState} (h : c.waiters.length ≤ 15) (rest : List Byte) :
    recordsOf (c.recordBytes index ++ rest) = (recordsOf rest).map fun more => { index := index, claim := c } :: more := by
  have bytes : c.recordBytes index ++ rest = index :: (c.state.code ++ (0#2 ++ BitVec.ofNat 4 c.waiters.length) : BitVec 8) :: hiByte c.holders ::
      loByte c.holders :: hiByte c.generation :: loByte c.generation :: (c.waiters.flatMap Waiter.bytes ++ rest) := by
    simp [ClaimState.recordBytes, wordBytes]
  have count : (c.state.code ++ (0#2 ++ BitVec.ofNat 4 c.waiters.length) : BitVec 8).toNat % 16 = c.waiters.length := by
    have low : ((c.state.code ++ (0#2 ++ BitVec.ofNat 4 c.waiters.length) : BitVec 8).setWidth 4) = BitVec.ofNat 4 c.waiters.length := by
      rw [← BitVec.setWidth_setWidth_of_le _ (show 4 ≤ 6 by decide), setWidth_append, setWidth_append]
    have := congrArg BitVec.toNat low
    rw [BitVec.toNat_setWidth, BitVec.toNat_ofNat] at this
    omega
  have state : HoldState.ofCode ((((c.state.code ++ (0#2 ++ BitVec.ofNat 4 c.waiters.length) : BitVec 8)) >>> 6).setWidth 2) = some c.state := by
    rw [shift_append, HoldState.ofCode_code]
  have run : (c.waiters.flatMap Waiter.bytes).length = 2 * c.waiters.length := waiterBytes_length _
  rw [bytes, recordsOf_cons, count, state, List.take_left' run, List.drop_left' run, parseWaiters_bytes, wordOf_wordBytes, wordOf_wordBytes,
    if_neg (by rw [List.length_append]; omega)]
  rfl

theorem recordsOf_flatMap : ∀ cs : List (Byte × ClaimState), (∀ c ∈ cs, c.2.waiters.length ≤ 15) →
    recordsOf (cs.flatMap fun c => c.2.recordBytes c.1) = some (cs.map fun c => { index := c.1, claim := c.2 })
  | [], _ => rfl
  | c :: cs, h => by
    rw [List.flatMap_cons, recordsOf_recordBytes c.1 (h c List.mem_cons_self), recordsOf_flatMap cs fun d hd => h d (List.mem_cons_of_mem c hd)]
    rfl

/-! ### The head -/

theorem rosterCodes_rosterByte (a b c d : Membership) : rosterCodes (rosterByte a b c d) = [some a, some b, some c, some d] := by
  cases a <;> cases b <;> cases c <;> cases d <;> rfl

theorem rosterOf_rosterBytes (r : Vector Membership 16) :
    rosterOf (rosterByte r[0] r[1] r[2] r[3]) (rosterByte r[4] r[5] r[6] r[7]) (rosterByte r[8] r[9] r[10] r[11])
      (rosterByte r[12] r[13] r[14] r[15]) = some r := by
  simp only [rosterOf, rosterCodes_rosterByte]
  refine congrArg some (Vector.ext fun i hi => ?_)
  rw [Vector.getElem_ofFn]
  interval_cases i <;> rfl

theorem headOf_bytes {h : HeadFields} (hs : h.tableSize = 16 ∨ h.tableSize = 32 ∨ h.tableSize = 64) (hp : h.poolInUse ≤ 48) : headOf h.bytes = some h := by
  have pool : (BitVec.ofNat 8 h.poolInUse).toNat = h.poolInUse := Nat.mod_eq_of_lt (by omega)
  have size : (BitVec.ofNat 8 h.tableSize).toNat = h.tableSize := Nat.mod_eq_of_lt (by omega)
  have sizes : BitVec.ofNat 8 h.tableSize = 16#8 ∨ BitVec.ofNat 8 h.tableSize = 32#8 ∨ BitVec.ofNat 8 h.tableSize = 64#8 :=
    hs.imp (congrArg _) (Or.imp (congrArg _) (congrArg _))
  have bytes : headOf h.bytes = if (BitVec.ofNat 8 h.tableSize = 16#8 ∨ BitVec.ofNat 8 h.tableSize = 32#8 ∨ BitVec.ofNat 8 h.tableSize = 64#8) ∧
      (BitVec.ofNat 8 h.poolInUse).toNat ≤ 48 then
    (rosterOf (rosterByte h.roster[0] h.roster[1] h.roster[2] h.roster[3]) (rosterByte h.roster[4] h.roster[5] h.roster[6] h.roster[7])
        (rosterByte h.roster[8] h.roster[9] h.roster[10] h.roster[11]) (rosterByte h.roster[12] h.roster[13] h.roster[14] h.roster[15])).map fun roster =>
      { digest := wordOf (hiByte h.digest) (loByte h.digest), trainSequence := wordOf (hiByte h.trainSequence) (loByte h.trainSequence),
        roster := roster, tableSize := (BitVec.ofNat 8 h.tableSize).toNat, poolInUse := (BitVec.ofNat 8 h.poolInUse).toNat }
    else none := rfl
  rw [bytes, if_pos ⟨sizes, by omega⟩, rosterOf_rosterBytes, wordOf_wordBytes, wordOf_wordBytes, pool, size]
  rfl

/-- Settles O58. -/
theorem snapshotBodiesReadBack : Obligations.SnapshotBodiesReadBack := by
  unfold Obligations.SnapshotBodiesReadBack
  refine ⟨recordsOf_flatMap, fun h hs hp => headOf_bytes hs hp, rfl, fun body => recordsOf_short, fun index sw h1 h0 g1 g0 rest => ?_⟩
  dsimp only
  rw [recordsOf_cons]
  refine ⟨fun h => if_pos h, fun h => ?_, fun h st hst => ?_⟩
  · rw [HoldState.ofCode_three ((topBits_toNat sw).trans h)]
    split <;> rfl
  · have code : (sw >>> 6).setWidth 2 = st.code := BitVec.eq_of_toNat_eq ((topBits_toNat sw).trans hst)
    rw [if_neg (Nat.not_lt.2 h), code, HoldState.ofCode_code]
    rfl

end Sys2Proof.Machine
end

section
/-! The format checks, and trains (Table 3-8, R57 to R61, R107, R116 to R119). -/

namespace Sys2Proof.Machine

/-! ### The checks of a frame -/

theorem FrameKind.ofCode_code (k : FrameKind) : FrameKind.ofCode k.code = some k := by cases k <;> rfl

theorem FrameKind.exists_code {c : BitVec 4} (h : c.toNat < 12) : ∃ k : FrameKind, c = k.code := by
  have all : ∀ n : Fin 12, ∃ k : FrameKind, k.code.toNat = n.val := fun n => by
    fin_cases n
    exacts [⟨.syncReq, rfl⟩, ⟨.snapHead, rfl⟩, ⟨.snapEntry, rfl⟩, ⟨.snapTail, rfl⟩, ⟨.join, rfl⟩, ⟨.leave, rfl⟩, ⟨.heartbeat, rfl⟩, ⟨.reap, rfl⟩,
      ⟨.release, rfl⟩, ⟨.withdraw, rfl⟩, ⟨.downgrade, rfl⟩, ⟨.claim, rfl⟩]
  obtain ⟨k, hk⟩ := all ⟨c.toNat, h⟩
  exact ⟨k, BitVec.eq_of_toNat_eq hk.symm⟩

theorem FrameKind.code_lt (k : FrameKind) : k.code.toNat < 12 := by cases k <;> decide

theorem FrameKind.ofCode_eq_some {c : BitVec 4} {k : FrameKind} (h : FrameKind.ofCode c = some k) : c = k.code := by
  by_cases hc : c.toNat < 12
  · obtain ⟨j, rfl⟩ := FrameKind.exists_code hc
    rw [FrameKind.ofCode_code] at h
    cases h
    rfl
  · have high : FrameKind.ofCode c = none := by
      have := c.isLt
      unfold FrameKind.ofCode
      split <;> first | omega | rfl
    rw [high] at h
    cases h

/-- A frame passes the checks of Table 3-8. -/
theorem frameGood_iff (ts : Nat) (f : RawFrame) : frameGood ts f = true ↔
    f.check = frameCheck f ∧ ∃ k : FrameKind, f.kind = k.code ∧ f.cls = k.cls ∧ lenGood k f.len.toNat = true ∧ bodyGood ts k f.body = true := by
  unfold frameGood
  rw [Bool.and_eq_true, beq_iff_eq]
  refine and_congr_right fun _ => ?_
  cases h : FrameKind.ofCode f.kind with
  | none =>
    refine ⟨(by simp), fun ⟨k, hk, _⟩ => ?_⟩
    rw [hk, FrameKind.ofCode_code] at h
    cases h
  | some k =>
    obtain hk := FrameKind.ofCode_eq_some h
    simp only [Bool.and_eq_true, beq_iff_eq]
    constructor
    · rintro ⟨⟨hc, hl⟩, hb⟩
      exact ⟨k, hk, hc, hl, hb⟩
    · rintro ⟨j, hj, hc, hl, hb⟩
      rw [hj, FrameKind.ofCode_code] at h
      cases h
      exact ⟨⟨hc, hl⟩, hb⟩

theorem frameCheck_raw (number : Station) (t : TxFrame) : (t.raw number).check = frameCheck (t.raw number) := rfl

/-- What a station transmits passes the checks if its LEN and body do. -/
theorem frameGood_raw (number : Station) {t : TxFrame} (ts : Nat) (h : t.body.length ≤ 40) :
    frameGood ts (t.raw number) = (lenGood t.kind t.body.length && bodyGood ts t.kind t.body) := by
  have len : (t.raw number).len.toNat = t.body.length := Nat.mod_eq_of_lt (by omega)
  have kind : FrameKind.ofCode (t.raw number).kind = some t.kind := t.kind.ofCode_code
  have cls : (t.raw number).cls = t.kind.cls := rfl
  have body : (t.raw number).body = t.body := rfl
  rw [frameGood, kind, len, cls, body, frameCheck_raw]
  simp

theorem FrameKind.cls_toNat (k : FrameKind) : k.cls.toNat =
    if k.code.toNat < 4 then 0 else if k.code.toNat < 8 then 1 else if k.code.toNat < 11 then 2 else 3 := by cases k <;> rfl

/-- LEN is the kind's (R57), kind by kind. -/
theorem lenGood_iff (k : FrameKind) (len : Nat) : lenGood k len = true ↔
    (k.code.toNat = 0 ∨ k.code.toNat = 5 ∨ k.code.toNat = 6 → len = 0) ∧
    (k.code.toNat = 7 ∨ k.code.toNat = 8 ∨ k.code.toNat = 9 ∨ k.code.toNat = 10 → len = 1) ∧ (k.code.toNat = 3 → len = 2) ∧
    (k.code.toNat = 11 → len = 3) ∧ (k.code.toNat = 4 → len = 4) ∧ (k.code.toNat = 1 → len = 10) ∧ (k.code.toNat = 2 → 6 ≤ len ∧ len ≤ 40) := by
  cases k <;> simp [lenGood, FrameKind.fixedLen, FrameKind.code]

/-! ### Roster codes -/

/-- A byte's bits are those of its four codes. -/
theorem fieldBits_byte (b : Byte) : fieldBits b = fieldBits ((b >>> 6).setWidth 2 : BitVec 2) ++ fieldBits ((b >>> 4).setWidth 2 : BitVec 2) ++
    fieldBits ((b >>> 2).setWidth 2 : BitVec 2) ++ fieldBits (b.setWidth 2 : BitVec 2) := by
  simp [fieldBits, List.range_succ, BitVec.getMsbD_eq_getLsbD]

theorem Membership.ofCode_isSome (c : BitVec 2) : (Membership.ofCode c).isSome = true ↔ fieldBits c ≠ [true, true] := by
  have all : ∀ n : Fin 4, (Membership.ofCode (BitVec.ofNat 2 n.val)).isSome = true ↔ fieldBits (BitVec.ofNat 2 n.val) ≠ [true, true] := by decide
  simpa using all ⟨c.toNat, c.isLt⟩

/-- A roster has no code 11b (R61). -/
theorem rosterOf_isSome (b0 b1 b2 b3 : Byte) : (rosterOf b0 b1 b2 b3).isSome = true ↔
    ∀ x : Station, ((bytesBits [b0, b1, b2, b3]).drop (2 * x.val)).take 2 ≠ [true, true] := by
  have codes : (rosterOf b0 b1 b2 b3).isSome = (rosterCodes b0 ++ rosterCodes b1 ++ rosterCodes b2 ++ rosterCodes b3).all Option.isSome := by
    unfold rosterOf
    dsimp only
    split <;> simp_all
  have station : ∀ p : Fin 16 → Prop, (∀ x, p x) ↔ p 0 ∧ p 1 ∧ p 2 ∧ p 3 ∧ p 4 ∧ p 5 ∧ p 6 ∧ p 7 ∧ p 8 ∧ p 9 ∧ p 10 ∧ p 11 ∧ p 12 ∧ p 13 ∧ p 14 ∧ p 15 :=
    fun p => by simp [Fin.forall_fin_succ]
  rw [codes, station]
  simp only [rosterCodes, List.cons_append, List.nil_append, List.all_cons, List.all_nil, Bool.and_eq_true, Membership.ofCode_isSome, and_true,
    bytesBits, List.flatMap_cons, List.flatMap_nil, fieldBits_byte b0, fieldBits_byte b1, fieldBits_byte b2, fieldBits_byte b3]
  rfl

/-- The codes and the pool count of a SNAP_HEAD body (R61). -/
theorem headOf_isSome {body : List Byte} (h : body.length = 10) : (headOf body).isSome = true ↔
    (∀ b : Byte, body[8]? = some b → b = 16#8 ∨ b = 32#8 ∨ b = 64#8) ∧ (∀ b : Byte, body[9]? = some b → b.toNat ≤ 48) ∧
    ∀ x : Station, ((bytesBits (body.drop 4)).drop (2 * x.val)).take 2 ≠ [true, true] := by
  match body, h with
  | [d1, d0, s1, s0, r0, r1, r2, r3, size, pool], _ =>
    have roster : ∀ x : Station, ((bytesBits ([d1, d0, s1, s0, r0, r1, r2, r3, size, pool].drop 4)).drop (2 * x.val)).take 2 =
        ((bytesBits [r0, r1, r2, r3]).drop (2 * x.val)).take 2 := fun x => by
      have := x.isLt
      have codes : (bytesBits [r0, r1, r2, r3]).length = 32 := bytesBits_length _
      rw [show [d1, d0, s1, s0, r0, r1, r2, r3, size, pool].drop 4 = [r0, r1, r2, r3] ++ [size, pool] from rfl, bytesBits_append,
        List.drop_append_of_le_length (by omega), List.take_append_of_le_length (by rw [List.length_drop]; omega)]
    have read : (headOf [d1, d0, s1, s0, r0, r1, r2, r3, size, pool]).isSome = true ↔
        (size = 16#8 ∨ size = 32#8 ∨ size = 64#8) ∧ pool.toNat ≤ 48 ∧ (rosterOf r0 r1 r2 r3).isSome = true := by
      rw [← and_assoc]
      unfold headOf
      dsimp only
      by_cases hc : (size = 16#8 ∨ size = 32#8 ∨ size = 64#8) ∧ pool.toNat ≤ Config.poolSize
      · rw [if_pos hc, Option.isSome_map]
        exact (and_iff_right hc).symm
      · rw [if_neg hc]
        exact iff_of_false (by simp) fun k => hc k.1
    simp only [roster, ← rosterOf_isSome, read]
    simp

/-! ### The checks by kind -/

/-- The body checks of a kind, in the words of Table 3-8. -/
theorem bodyGood_iff (ts : Nat) (k : FrameKind) {body : List Byte} (h : lenGood k body.length = true) : bodyGood ts k body = true ↔
    (8 ≤ k.code.toNat → ∀ b : Byte, body[0]? = some b → b.toNat < ts) ∧
    (k.code.toNat = 1 → (∀ b : Byte, body[8]? = some b → b = 16#8 ∨ b = 32#8 ∨ b = 64#8) ∧
      (∀ b : Byte, body[9]? = some b → b.toNat ≤ 48) ∧
      ∀ x : Station, ((bytesBits (body.drop 4)).drop (2 * x.val)).take 2 ≠ [true, true]) ∧
    (k.code.toNat = 2 → ∃ rs : List EntryRecord, recordsOf body = some rs ∧ ∀ r ∈ rs, r.index.toNat < ts) := by
  have resource : 1 ≤ body.length → (decide ((body.headD 0xFF#8).toNat < ts) = true ↔ ∀ b : Byte, body[0]? = some b → b.toNat < ts) := fun hl => by
    cases body with
    | nil => simp at hl
    | cons b bs => simp
  cases k with
  | claim => simpa [FrameKind.code, bodyGood] using resource (by simp [lenGood, FrameKind.fixedLen] at h; omega)
  | release | withdraw | downgrade => simpa [FrameKind.code, bodyGood] using resource (by simp [lenGood, FrameKind.fixedLen] at h; omega)
  | snapHead => simpa [FrameKind.code, bodyGood] using headOf_isSome (by simpa [lenGood, FrameKind.fixedLen] using h)
  | snapEntry =>
    cases hr : recordsOf body with
    | none => simp [bodyGood, hr, FrameKind.code]
    | some rs => simp [bodyGood, hr, FrameKind.code]
  | syncReq | snapTail | join | leave | heartbeat | reap => simp [FrameKind.code, bodyGood]

/-- Settles O57. -/
theorem dataSlotsReadBackAndPassTheChecks : Obligations.DataSlotsReadBackAndPassTheChecks := by
  unfold Obligations.DataSlotsReadBackAndPassTheChecks
  refine ⟨fun f h => ⟨dataSlots_readBack h, by rw [dataSlots_length, h]⟩, fun number t ts h => frameGood_raw number ts h, fun f ts h => ?_⟩
  dsimp only
  rw [frameGood_iff]
  constructor
  · rintro ⟨check, k, kind, cls, len, body⟩
    obtain ⟨l0, l1, l2, l3, l4, l10, l40⟩ := (lenGood_iff k _).1 len
    obtain ⟨resource, head, entry⟩ := (bodyGood_iff ts k (by rw [h]; exact len)).1 body
    rw [kind, cls]
    exact ⟨check, k.code_lt, k.cls_toNat, l0, l1, l2, l3, l4, l10, l40, resource, head, entry⟩
  · rintro ⟨check, known, cls, l0, l1, l2, l3, l4, l10, l40, resource, head, entry⟩
    obtain ⟨k, kind⟩ := FrameKind.exists_code known
    rw [kind] at cls l0 l1 l2 l3 l4 l10 l40 resource head entry
    have len : lenGood k f.len.toNat = true := (lenGood_iff k _).2 ⟨l0, l1, l2, l3, l4, l10, l40⟩
    exact ⟨check, k, kind, BitVec.eq_of_toNat_eq (cls.trans k.cls_toNat.symm), len, (bodyGood_iff ts k (by rw [h]; exact len)).2 ⟨resource, head, entry⟩⟩

/-! ### The records of one SNAP_ENTRY (R110) -/

/-- Whole records are packed from the first on, and packing stops only where the next would not fit. -/
theorem packRecords_spec : ∀ (records : List (List Byte)) (room : Nat), ∃ n, n ≤ records.length ∧ packRecords room records = records.take n ∧
    (records.take n).flatten.length ≤ room ∧ (∀ r, records[n]? = some r → room < (records.take n).flatten.length + r.length) ∧
    (∀ r, records[0]? = some r → r.length ≤ room → 1 ≤ n)
  | [], room => ⟨0, le_rfl, rfl, Nat.zero_le _, (by simp), (by simp)⟩
  | r :: rs, room => by
    by_cases fits : r.length ≤ room
    · obtain ⟨n, within, packed, bound, stops, -⟩ := packRecords_spec rs (room - r.length)
      refine ⟨n + 1, Nat.succ_le_succ within, ?_, ?_, fun q hq => ?_, fun _ _ _ => Nat.le_add_left 1 n⟩
      · rw [packRecords, if_pos fits, packed, List.take_succ_cons]
      · rw [List.take_succ_cons, List.flatten_cons, List.length_append]
        omega
      · have := stops q (by simpa using hq)
        rw [List.take_succ_cons, List.flatten_cons, List.length_append]
        omega
    · refine ⟨0, Nat.zero_le _, if_neg fits, Nat.zero_le _, fun q hq => ?_, fun q hq hle => absurd hle ?_⟩
      · cases hq
        simpa using fits
      · cases hq
        exact fits

theorem State.recordAt_length (s : State) (i : Nat) : (s.recordAt i).length = 6 + 2 * (s.replica.entry i).waiters.length :=
  ClaimState.recordBytes_length ..

/-- Settles O59. -/
theorem snapEntryBodyIsWholeRecordsUpToFortyBytes : Obligations.SnapEntryBodyIsWholeRecordsUpToFortyBytes := by
  unfold Obligations.SnapEntryBodyIsWholeRecordsUpToFortyBytes
  intro s hc hw
  obtain ⟨n, within, packed, bound, stops, first⟩ :=
    packRecords_spec ((List.range (s.tableSize - s.sync.cursor)).map fun i => s.recordAt (s.sync.cursor + i)) 40
  rw [List.length_map, List.length_range] at within
  have records : ((List.range (s.tableSize - s.sync.cursor)).map fun i => s.recordAt (s.sync.cursor + i)).take n =
      (List.range n).map fun i => s.recordAt (s.sync.cursor + i) := by
    rw [← List.map_take, List.take_range, Nat.min_eq_left within]
  have body : s.entriesBody = (List.range n).flatMap fun i => s.recordAt (s.sync.cursor + i) := by
    rw [State.entriesBody, packed, records, List.flatMap_def]
  have place : ∀ i, i < s.tableSize - s.sync.cursor →
      ((List.range (s.tableSize - s.sync.cursor)).map fun i => s.recordAt (s.sync.cursor + i))[i]? = some (s.recordAt (s.sync.cursor + i)) := fun i hi => by
    rw [List.getElem?_map, List.getElem?_range hi]; rfl
  rw [records, ← List.flatMap_def, ← body] at bound stops
  refine ⟨n, first _ (place 0 (by omega)) ?_, by omega, body, bound, fun hn => stops _ (place n (by omega))⟩
  have := hw (s.sync.cursor + 0)
  rw [State.recordAt_length]
  omega

/-! ### A whole train -/

theorem PortUnit.tableSize_cases (p : PortUnit) : p.tableSize = 16 ∨ p.tableSize = 32 ∨ p.tableSize = 64 := by
  unfold PortUnit.tableSize tableSizeOfCode
  split
  · split <;> simp
  · exact .inl rfl

theorem Replica.ext_entry {r q : Replica} (entry : ∀ i, i < 64 → r.entry i = q.entry i) (pool : r.poolInUse = q.poolInUse) (roster : r.roster = q.roster)
    (sequence : r.sequence = q.sequence) (valid : r.valid = q.valid) : r = q := by
  have table : r.table = q.table := Vector.ext fun i hi => by
    rw [← Replica.entry_of_lt r hi, ← Replica.entry_of_lt q hi, entry i hi]
  obtain ⟨⟩ := r
  obtain ⟨⟩ := q
  simp_all

/-- Records whose indices follow on are taken in order (R115). -/
theorem Shadow.takeRecords_range' : ∀ (rs : List EntryRecord) (sh : Shadow), rs.map (fun r => r.index.toNat) = List.range' sh.claims.length rs.length →
    sh.takeRecords rs = some { sh with claims := sh.claims ++ rs.map EntryRecord.claim }
  | [], sh, _ => by simp [Shadow.takeRecords]
  | r :: rs, sh, h => by
    rw [List.map_cons, List.length_cons, List.range'_succ, List.cons.injEq] at h
    rw [Shadow.takeRecords, if_pos h.1, Shadow.takeRecords_range' rs]
    · simp
    · simpa using h.2

/-- Records that do not follow on are not taken (R115). -/
theorem Shadow.takeRecords_eq_none : ∀ (rs : List EntryRecord) (sh : Shadow), rs.map (fun r => r.index.toNat) ≠ List.range' sh.claims.length rs.length →
    sh.takeRecords rs = none
  | [], sh, h => absurd rfl h
  | r :: rs, sh, h => by
    rw [List.map_cons, List.length_cons, List.range'_succ] at h
    rw [Shadow.takeRecords]
    by_cases hr : r.index.toNat = sh.claims.length
    · rw [if_pos hr]
      refine Shadow.takeRecords_eq_none rs _ fun k => h ?_
      rw [hr, k]
      simp
    · exact if_neg hr

theorem checkBytes_append (acc : Word) (a b : List Byte) : checkBytes acc (a ++ b) = checkBytes (checkBytes acc a) b := by
  simp only [checkBytes, bytesBits_append, checkBits, List.foldl_append]

/-- The entry records of the replica, index by index. -/
def State.entryRecords (s : State) : List EntryRecord :=
  (List.range s.tableSize).map fun i => { index := BitVec.ofNat 8 i, claim := (s.replica.entry i).claimState }

theorem State.recordsOf_recordAt {s : State} (h : ∀ i, (s.replica.entry i).waiters.length ≤ 15) :
    recordsOf ((List.range s.tableSize).flatMap s.recordAt) = some s.entryRecords := by
  have := recordsOf_flatMap ((List.range s.tableSize).map fun i => (BitVec.ofNat 8 i, (s.replica.entry i).claimState)) (fun c hc => by
    obtain ⟨i, -, rfl⟩ := List.mem_map.1 hc
    exact h i)
  rw [List.flatMap_map, List.map_map] at this
  exact this

theorem State.entryRecords_index (s : State) : s.entryRecords.map (fun r => r.index.toNat) = List.range' 0 s.entryRecords.length := by
  rw [State.entryRecords, List.map_map, List.length_map, List.length_range, ← List.range_eq_range']
  have size : s.tableSize ≤ 64 := s.tableSize_le
  refine (List.map_congr_left fun i hi => ?_).trans (List.map_id _)
  exact Nat.mod_eq_of_lt (by have := List.mem_range.1 hi; omega)

theorem State.entryRecords_claim (s : State) : s.entryRecords.map EntryRecord.claim = (List.range s.tableSize).map fun i => (s.replica.entry i).claimState :=
  List.map_map

/-- The pool count is the sum over the entries within TABLE_SIZE (R12). -/
theorem Replica.lawful.poolInUse_eq {r : Replica} {ts : Nat} (h : r.lawful ts) (hts : ts ≤ 64) :
    r.poolInUse = ((List.range ts).map fun i => (r.entry i).waiters.length).sum := by
  obtain ⟨-, outside, -, pool⟩ := h
  calc r.poolInUse
    _ = r.waiterCount := ((Replica.poolLaw_iff _).1 pool).1
    _ = ∑ i ∈ Finset.range ts, r.waitersAt i := by
      refine (Finset.sum_subset (by simpa using hts) fun i _ hi => ?_).symm
      rw [Replica.waitersAt, outside i (by simpa using hi)]
      rfl
    _ = _ := rfl

/-- The shadow of the server's own replica. -/
def State.ownShadow (s : State) : Shadow :=
  { source := s.ctl.number, trainSequence := s.replica.sequence, roster := s.replica.roster, poolInUse := s.replica.poolInUse,
    headBody := s.headFields.bytes, claims := (List.range s.tableSize).map fun i => (s.replica.entry i).claimState }

theorem State.ownShadow_bytes (s : State) : s.ownShadow.bytes = s.headFields.bytes ++ (List.range s.tableSize).flatMap s.recordAt := by
  have places : s.ownShadow.claims.zipIdx = (List.range s.tableSize).map fun i => ((s.replica.entry i).claimState, i) := by
    refine List.ext_getElem (by simp [State.ownShadow]) fun i _ _ => ?_
    simp [State.ownShadow]
  rw [Shadow.bytes, places, List.flatMap_map]
  rfl

/-- A receiver with the server's block installs the server's replica. -/
theorem State.installed_ownShadow {s : State} (law : s.replica.lawful s.tableSize) (valid : s.replica.valid = true)
    (block : ∀ i : Nat, i < s.tableSize → (s.replica.entry i).permit = s.port.permit i ∧ (s.replica.entry i).sharedOk = s.port.sharedOk i) :
    s.port.installed s.ownShadow = s.replica := by
  refine Replica.ext_entry (fun i hi => ?_) (by simp only [PortUnit.installed, State.ownShadow]) (by simp only [PortUnit.installed, State.ownShadow])
    (by simp only [PortUnit.installed, State.ownShadow]) (by simp only [PortUnit.installed, valid])
  rw [s.port.installed_entry _ i hi, PortUnit.entryWith]
  by_cases within : i < s.port.tableSize
  · have claim : s.ownShadow.claims[i]? = some (s.replica.entry i).claimState := by
      rw [State.ownShadow, State.tableSize, List.getElem?_map, List.getElem?_range within]; rfl
    rw [if_pos within, claim, ← (block i within).1, ← (block i within).2]
    rfl
  · rw [if_neg within, law.2.1 i (Nat.not_lt.1 within)]

/-- Settles O60. -/
theorem trainCarriesTheServersReplica : Obligations.TrainCarriesTheServersReplica := by
  unfold Obligations.TrainCarriesTheServersReplica
  intro s law valid waiters block
  have size : s.tableSize ≤ 64 := s.tableSize_le
  have pool : s.replica.poolInUse ≤ 48 := ((Replica.poolLaw_iff _).1 law.2.2.2).2
  have index : s.entryRecords.map (fun r => r.index.toNat) = List.range' 0 s.entryRecords.length := s.entryRecords_index
  refine ⟨s.headFields, s.entryRecords, s.ownShadow, headOf_bytes s.port.tableSize_cases pool, State.recordsOf_recordAt waiters,
    ?_, ?_, State.installed_ownShadow law valid block⟩
  · rw [Shadow.takeRecords_range' _ _ index, State.entryRecords_claim]
    rfl
  · simp only [Shadow.good, Bool.and_eq_true, beq_iff_eq]
    refine ⟨⟨by simp [State.ownShadow], ?_⟩, by rw [s.ownShadow_bytes, checkBytes_append]⟩
    rw [State.ownShadow, List.map_map]
    exact law.poolInUse_eq size

end Sys2Proof.Machine
end

section
/-! The service frames of a train (R107 to R120). -/

namespace Sys2Proof.Machine

/-! ### The server's own train frames -/

theorem State.restartHeartbeatTimer_of_inStep {s : State} (h : s.ctl.state = .inStep) :
    s.restartHeartbeatTimer.lease.heartbeat = .running (s.leaseUs / 4) := by
  rw [State.restartHeartbeatTimer, if_pos h]

/-- The state in which a train frame of this station has completed, before it moves the train on. -/
def State.trainSent (s : State) (f : TxFrame) (a : Answers) : State := (s.sentHold .train f a).endSource .train

section trainSent
variable (s : State) (f : TxFrame) (a : Answers)

@[simp] theorem State.trainSent_ctl : (s.trainSent f a).ctl = s.ctl := by simp [State.trainSent]
@[simp] theorem State.trainSent_replica : (s.trainSent f a).replica = s.replica := by simp [State.trainSent]
@[simp] theorem State.trainSent_trainIntent : (s.trainSent f a).cont.trainIntent = s.cont.trainIntent := by simp [State.trainSent]
@[simp] theorem State.trainSent_hold : (s.trainSent f a).cont.hold = if f.cont then some s.ctl.number else none := by
  simp [State.trainSent, State.sentHold_hold]

end trainSent

theorem State.trainSent_of_noIntrusion {s : State} (h : s.noIntrusionBy s.ctl.number) (f : TxFrame) (a : Answers) :
    (s.trainSent f a).port = s.port ∧ (s.trainSent f a).sync = s.sync ∧
    (s.trainSent f a).cont.silent = (if s.cont.hold = some s.ctl.number ∧ f.cont = false then false else s.cont.silent) := by
  obtain ⟨port, sync, silent⟩ := State.sentHold_of_noIntrusion h .train f a
  simp [State.trainSent, port, sync, silent]

/-- A frame that closes a hold of its own, or meets none, leaves silent set only where there was none (R82). -/
theorem State.silent_of_released {s : State} (h : s.noIntrusionBy s.ctl.number) :
    (if s.cont.hold = some s.ctl.number ∧ false = false then false else s.cont.silent) = (s.cont.silent && s.cont.hold.isNone) := by
  rcases h with h | h <;> simp [h]

/-- Settles O45. -/
theorem serverMovesThroughItsTrain : Obligations.ServerMovesThroughItsTrain := by
  unfold Obligations.ServerMovesThroughItsTrain
  intro a s f hst hr hn
  obtain ⟨port, sync, silent⟩ := State.trainSent_of_noIntrusion hn f a
  have lease : (s.trainSent f a).leaseUs = s.leaseUs := congrArg PortUnit.leaseUs port
  have inStep : (s.trainSent f a).ctl.state = .inStep := by rw [State.trainSent_ctl, hst]
  refine ⟨fun h hf => ⟨_, exec_ownFrame_completed (c := .snapHead .own a) rfl h hr, ?_⟩,
    fun rs h hf hp hrs => ⟨_, exec_ownFrame_completed (c := .snapEntry .own a) rfl h hr, ?_⟩,
    fun h hf hp => ⟨_, exec_ownFrame_completed (c := .snapTail .own a) rfl h hr, ?_⟩⟩
  · have completed : completesBy .snapHead a .train f (s.sentHold .train f a) = ((s.trainSent f a).beginServing f.body).restartHeartbeatTimer := rfl
    have timer := State.restartHeartbeatTimer_of_inStep (s := (s.trainSent f a).beginServing f.body)
    rw [completed]
    rw [State.beginServing, if_pos inStep] at timer ⊢
    refine ⟨by simp, by simp, by simp; rfl, by simp, by simp [hf], ?_, by simp, by simp, by simp [port]⟩
    rw [timer inStep, ← lease]
    rfl
  · have completed : completesBy .snapEntry a .train f (s.sentHold .train f a) = ((s.trainSent f a).advanceCursor f.body).restartHeartbeatTimer := rfl
    have timer := State.restartHeartbeatTimer_of_inStep (s := (s.trainSent f a).advanceCursor f.body)
    have size : (s.trainSent f a).tableSize = s.tableSize := congrArg PortUnit.tableSize port
    rw [completed]
    rw [State.advanceCursor, if_pos (by rw [sync]; exact hp)] at timer ⊢
    refine ⟨by simp [sync, hrs], by simp [sync, hrs, size], by simp [sync], by simp [hf], ?_, by simp, by simp, by simp [port]⟩
    rw [timer inStep, ← lease]
    rfl
  · have completed : completesBy .snapTail a .train f (s.sentHold .train f a) = ((s.trainSent f a).finishTrain).restartHeartbeatTimer := rfl
    have timer := State.restartHeartbeatTimer_of_inStep (s := (s.trainSent f a).finishTrain)
    rw [completed]
    rw [State.finishTrain, if_pos (by rw [sync]; exact hp)] at timer ⊢
    refine ⟨?_, by simp [State.endTrain], by simp [State.endTrain, checkPreset], by simp [hf], ?_, ?_, by simp, by simp, by simp [port]⟩
    · simp [State.endTrain, hst]
    · rw [State.restartHeartbeatTimer_cont, State.endTrain_cont_silent, silent, hf]
      exact State.silent_of_released hn
    · rw [timer inStep, ← lease]
      rfl

/-! ### A head heard -/

theorem headOf_length {body : List Byte} {hf : HeadFields} (h : headOf body = some hf) : body.length = 10 := by
  unfold headOf at h
  split at h
  · rfl
  · cases h

theorem State.openShadow_foreign {s : State} {body : List Byte} {hf : HeadFields} (h : headOf body = some hf) (hd : hf.digest ≠ s.port.digest) (x : Station) :
    s.openShadow x body = ({ s with sync := { s.sync with shadow := none } } : State).expel .refused .refused 0#16 := by
  unfold State.openShadow
  simp only [h]
  exact if_pos hd

theorem State.openShadow_otherSize {s : State} {body : List Byte} {hf : HeadFields} (h : headOf body = some hf) (hd : hf.digest = s.port.digest)
    (ht : hf.tableSize ≠ s.tableSize) (x : Station) :
    s.openShadow x body = { s with cont := { s.cont with syncReqPending := true }, sync := { s.sync with shadow := none } } := by
  unfold State.openShadow
  simp only [h]
  exact (if_neg (not_not.2 hd)).trans (if_pos ht)

theorem State.openShadow_opens {s : State} {body : List Byte} {hf : HeadFields} (h : headOf body = some hf) (hd : hf.digest = s.port.digest)
    (ht : hf.tableSize = s.tableSize) (x : Station) :
    s.openShadow x body =
      { s with cont := s.cont.clearSyncReq,
               sync := { s.sync with retry := .stopped,
                                     shadow := some { source := x, trainSequence := hf.trainSequence, roster := hf.roster, poolInUse := hf.poolInUse,
                                                      headBody := body, claims := [] } } } := by
  unfold State.openShadow
  simp only [h]
  exact (if_neg (not_not.2 hd)).trans (if_neg (not_not.2 ht))

theorem State.standDown_phase (s : State) : s.standDown.sync.phase ≠ .head := by
  unfold State.standDown
  dsimp only
  split <;> simp_all

/-- A shadow that is not there is not there after a hold has ended. -/
theorem State.abandonHold_closed {s : State} (h : s.sync.shadow = none) (x : Station) : (s.abandonHold x).sync.shadow = none :=
  (State.abandonHold_other_shadow (by rw [h]; nofun)).1.trans h

theorem State.heardHold_closed {s : State} (h : s.sync.shadow = none) (f : HeardFrame) : (s.heardHold f).sync.shadow = none := by
  cases hh : s.cont.hold with
  | none => rw [(State.heardHold_of_noIntrusion (.inl hh)).2.1, h]
  | some y =>
    by_cases hy : y = f.head.station
    · rw [(State.heardHold_of_noIntrusion (.inr (hy ▸ hh))).2.1, h]
    · obtain ⟨hold, eq⟩ := State.followHold_of_intruder (s := s.heardFrom f) hh hy f.head.cont
      rw [State.heardHold, eq]
      exact State.abandonHold_closed (s := s.heardFrom f) h y

/-- Settles O42. -/
theorem snapHeadOpensTheShadow : Obligations.SnapHeadOpensTheShadow := by
  unfold Obligations.SnapHeadOpensTheShadow
  intro h body a s hf hs hr hn head
  let f : HeardFrame := { kind := .snapHead, head := h, bytes := body, answers := a }
  have whole : s.wellFormedHere f = true := by simp [f, State.wellFormedHere, lenGood, FrameKind.fixedLen, headOf_length head, bodyGood, head]
  have run := exec_heard_completed (c := .snapHead (.heard h body) a) (f := f) rfl hs whole hr fun he => absurd he hn
  have follows := s.delivered_holdFollows f
  have clean : ∀ t : State, t.lease = s.heardLease h.station → t.ctl = s.ctl.clean → s.heardCleanly t h.station := fun t hl hc =>
    State.heardCleanly_of (by rw [hl]) (by rw [hl]) (by rw [hc]) (by rw [hc])
  have digest : (s.heardHold f).standDown.port.digest = s.port.digest := by simp
  have size : (s.heardHold f).standDown.tableSize = s.tableSize := s.heardHold_tableSize f
  cases hq : s.ctl.state.requesting with
  | false =>
    have delivers : s.delivered f (s.heardHold f) = (s.heardHold f).standDown := if_neg (by rw [hq]; decide)
    rw [delivers] at run follows
    refine ⟨_, run, follows, fun _ => clean _ (by simp [f]) (by simp), rfl, State.standDown_phase _, rfl,
      fun _ => ⟨by simp, by simp, fun hc => State.heardHold_closed hc f⟩, (by simp), (by simp), (by simp)⟩
  | true =>
    have delivers : s.delivered f (s.heardHold f) = (s.heardHold f).standDown.openShadow h.station body := if_pos hq
    rw [delivers] at run follows
    by_cases hd : hf.digest = s.port.digest
    · by_cases ht : hf.tableSize = s.tableSize
      · have opens := State.openShadow_opens head (hd.trans digest.symm) (ht.trans size.symm) h.station
        rw [opens] at run follows
        refine ⟨_, run, follows, fun _ => clean _ (by simp [f]) (by simp), rfl, State.standDown_phase _, rfl, (by simp), fun _ k => absurd hd k,
          fun _ _ k => absurd ht k, fun _ _ _ => ⟨by simp, rfl, by simp, rfl⟩⟩
      · have declines := State.openShadow_otherSize head (hd.trans digest.symm) (by rw [size]; exact ht) h.station
        rw [declines] at run follows
        refine ⟨_, run, follows, fun _ => clean _ (by simp [f]) (by simp), rfl, State.standDown_phase _, rfl, (by simp), fun _ k => absurd hd k,
          fun _ _ _ => ⟨by simp, rfl, rfl, by simp⟩, fun _ _ k => absurd k ht⟩
    · have refuses := State.openShadow_foreign head (by rw [digest]; exact hd) h.station
      rw [refuses] at run follows
      refine ⟨_, run, follows, fun k => ?_, rfl, nofun, rfl, (by simp), fun _ _ => ⟨rfl, by simp, rfl, Replica.isEmptyForm_of_eq (by simp)⟩,
        fun _ k => absurd k hd, fun _ k => absurd k hd⟩
      rw [State.expel_state] at k
      rw [← k] at hq
      cases hq

/-! ### Records heard -/

/-- A SNAP_ENTRY from the Source of an OPEN shadow (R115). -/
theorem State.takeEntries_source {s : State} {sh : Shadow} {body : List Byte} {rs : List EntryRecord} (h : s.sync.shadow = some sh)
    (hrs : recordsOf body = some rs) :
    (rs.map (fun r => r.index.toNat) = List.range' sh.claims.length rs.length → s.takeEntries sh.source body =
      { s with sync := { s.sync with shadow := some { sh with claims := sh.claims ++ rs.map EntryRecord.claim } } }) ∧
    (rs.map (fun r => r.index.toNat) ≠ List.range' sh.claims.length rs.length → s.takeEntries sh.source body = s.dropShadow) := by
  have source : ¬ sh.source ≠ sh.source := not_not.2 rfl
  constructor <;> intro order
  · simp only [State.takeEntries, h, hrs, if_neg source, Shadow.takeRecords_range' rs sh order]
  · simp only [State.takeEntries, h, hrs, if_neg source, Shadow.takeRecords_eq_none rs sh order]

/-- A SNAP_ENTRY that is not from the Source of a shadow changes nothing (R113). -/
theorem State.takeEntries_other {s : State} {x : Station} (h : ∀ sh : Shadow, s.sync.shadow = some sh → sh.source ≠ x) (body : List Byte) :
    s.takeEntries x body = s := by
  unfold State.takeEntries
  split
  · next sh _ hsh _ => exact if_pos (h sh hsh)
  · rfl

/-- What a frame heard under no other hold leaves, delivered or not. -/
theorem State.heardHold_cleanly (s : State) (f : HeardFrame) {t : State} (hl : t.lease = (s.heardHold f).lease) (hc : t.ctl = (s.heardHold f).ctl) :
    s.heardCleanly t f.head.station := by
  rw [State.heardHold_lease] at hl
  rw [State.heardHold_ctl] at hc
  exact State.heardCleanly_of (by rw [hl]) (by rw [hl]) (by rw [hc]) (by rw [hc])

/-- Settles O43. -/
theorem snapEntryFillsTheShadow : Obligations.SnapEntryFillsTheShadow := by
  unfold Obligations.SnapEntryFillsTheShadow
  refine ⟨fun h body a s sh rs hs hr hn hi h6 h40 hrs hin hsh hsrc => ?_, fun h body a s hs hr hn hi whole other => ?_⟩
  · let f : HeardFrame := { kind := .snapEntry, head := h, bytes := body, answers := a }
    have whole : s.wellFormedHere f = true := by simpa [f, State.wellFormedHere, lenGood, FrameKind.fixedLen, bodyGood, hrs, h6, h40] using hin
    have run : exec (.snapEntry (.heard h body) a) s = .next ((s.heardHold f).takeEntries sh.source body) := by
      rw [hsrc]
      exact exec_heard_completed (f := f) rfl hs whole hr fun he => absurd he hn
    have follows : s.holdFollows ((s.heardHold f).takeEntries sh.source body) h.station h.cont := by
      rw [hsrc]
      exact s.delivered_holdFollows f
    obtain ⟨port, sync, pending⟩ := State.heardHold_of_noIntrusion (f := f) hi
    obtain ⟨takes, drops⟩ := State.takeEntries_source (s := s.heardHold f) (by rw [sync]; exact hsh) hrs
    by_cases order : rs.map (fun r => r.index.toNat) = List.range' sh.claims.length rs.length
    · rw [takes order] at run follows
      exact ⟨_, run, by simp, by simp, port, State.heardHold_cleanly s f rfl rfl, follows, fun _ => by rw [sync], fun k => absurd order k⟩
    · rw [drops order] at run follows
      refine ⟨_, run, by simp, by simp, port, State.heardHold_cleanly s f rfl rfl, follows, fun k => absurd k order, fun _ => ⟨?_, rfl⟩⟩
      rw [State.dropShadow, sync]
  · let f : HeardFrame := { kind := .snapEntry, head := h, bytes := body, answers := a }
    have run := exec_heard_completed (c := .snapEntry (.heard h body) a) (f := f) rfl hs whole hr fun he => absurd he hn
    have follows := s.delivered_holdFollows f
    obtain ⟨port, sync, pending⟩ := State.heardHold_of_noIntrusion (f := f) hi
    have delivers : s.delivered f (s.heardHold f) = s.heardHold f := State.takeEntries_other (by rw [sync]; exact other) body
    rw [delivers] at run follows
    exact ⟨_, run, by simp, by simp, port, sync, State.heardHold_cleanly s f rfl rfl, follows⟩

/-! ### A tail heard -/

/-- The context asks for its resource and waits for the answer (R153). -/
def Context.asks (c : Context) : Bool := c.state == .waiting || c.state == .withdrawing

/-- Reconciliation (Table 8-7): a context that asks is granted when its station holds, evicted when it neither holds nor waits. -/
theorem Context.reconciled_eq (r : Replica) (number : Station) (c : Context) : c.reconciled r number =
    if c.asks = true ∧ (r.entry c.resource.toNat).holders.has number = true then
      some { result := .granted, tooLate := c.state == .withdrawing, generation := (r.entry c.resource.toNat).generation, sequence := r.sequence }
    else if c.asks = true ∧ (r.entry c.resource.toNat).waits number = false then
      some { result := .evicted, tooLate := false, generation := 0#16, sequence := r.sequence }
    else none := by
  have asks : c.asks = true ↔ c.state = .waiting ∨ c.state = .withdrawing := by simp [Context.asks]
  unfold Context.reconciled
  simp only [asks]
  by_cases ha : c.state = .waiting ∨ c.state = .withdrawing
  · cases (r.entry c.resource.toNat).holders.has number <;> cases (r.entry c.resource.toNat).waits number <;> simp [ha]
  · simp [ha]

theorem Context.reconciled_isSome (r : Replica) (number : Station) (c : Context) : (c.reconciled r number).isSome =
    (c.asks && ((r.entry c.resource.toNat).holders.has number || !(r.entry c.resource.toNat).waits number)) := by
  rw [Context.reconciled_eq]
  cases c.asks <;> cases (r.entry c.resource.toNat).holders.has number <;> cases (r.entry c.resource.toNat).waits number <;> rfl

/-- Only an open context asks. -/
theorem Context.decided_reconciled (r : Replica) (number : Station) (c : Context) :
    (c.decided fun c => c.reconciled r number) = c.reconciled r number := by
  unfold Context.decided
  by_cases hd : c.state = .done
  · rw [if_neg (by simp [Context.isOpen, hd]), Context.reconciled, if_neg (by simp [hd])]
  · rw [if_pos (by simp [Context.isOpen, hd])]

theorem Shadow.good_iff (sh : Shadow) (ts : Nat) (check : Word) : sh.good ts check = true ↔
    sh.claims.length = ts ∧ sh.poolInUse = (sh.claims.map fun c => c.waiters.length).sum ∧
    checkBytes 0xFFFF#16 (sh.headBody ++ sh.claims.zipIdx.flatMap fun c => c.1.recordBytes (BitVec.ofNat 8 c.2)) = check := by
  simp only [Shadow.good, Bool.and_eq_true, beq_iff_eq, and_assoc]
  rfl

/-- Installation, unit by unit (R119, R120). -/
theorem State.install_units (s : State) (sh : Shadow) : (s.install sh).ctl.state = .inStep ∧ (s.install sh).port.flag .regained = true ∧
    (s.install sh).replica = s.port.installed sh ∧ (s.install sh).sync.shadow = none ∧ (s.install sh).sync.retry = .stopped ∧
    (s.install sh).cont.syncReqPending = false ∧ (s.install sh).lease.reapSet = 0#16 ∧ (s.install sh).lease.heartbeat = .running (s.leaseUs / 4) ∧
    (∀ x : Station, (s.install sh).lease.remaining[x] = if sh.roster[x] = .present ∧ x ≠ s.ctl.number then s.leaseUs else 0) ∧
    (s.install sh).req = s.req.complete (fun c => c.reconciled (s.port.installed sh) s.ctl.number) ∧
    (s.install sh).cont.sendList = s.cont.sendList.filter fun e =>
      !s.req.contexts.any fun c => c.tag == e.tag && c.state == .withdrawing && (c.reconciled (s.port.installed sh) s.ctl.number).isSome := by
  refine ⟨rfl, by simp [State.install], rfl, rfl, rfl, rfl, rfl, rfl, fun x => ?_, rfl, rfl⟩
  exact Vector.getElem_ofFn _

/-- Reconciliation of the contexts at installation (R153). -/
theorem State.install_reconciles (s : State) (sh : Shadow) (holds waits asks : Context → Bool)
    (hh : holds = fun c => ((s.install sh).replica.entry c.resource.toNat).holders.has s.ctl.number)
    (hw : waits = fun c => ((s.install sh).replica.entry c.resource.toNat).waiters.any fun w => w.station == s.ctl.number)
    (ha : asks = fun c => c.state == .waiting || c.state == .withdrawing) :
    (s.install sh).req.queue = s.req.queue ++ s.req.contexts.filterMap (fun c =>
      if asks c = true ∧ holds c = true then
        some (c.record { result := .granted, tooLate := c.state == .withdrawing,
                         generation := ((s.install sh).replica.entry c.resource.toNat).generation, sequence := sh.trainSequence })
      else if asks c = true ∧ waits c = false then
        some (c.record { result := .evicted, tooLate := false, generation := 0#16, sequence := sh.trainSequence })
      else none) ∧
    (s.install sh).req.contexts = s.req.contexts.map (fun c => if asks c && (holds c || !waits c) then c.done else c) ∧
    (s.install sh).cont.sendList = s.cont.sendList.filter fun e =>
      !s.req.contexts.any fun c => c.tag == e.tag && c.state == .withdrawing && (holds c || !waits c) := by
  obtain ⟨-, -, replica, -, -, -, -, -, -, req, sendList⟩ := s.install_units sh
  subst hh hw ha
  rw [req, sendList, replica]
  refine ⟨congrArg (s.req.queue ++ ·) (List.filterMap_congr fun c _ => ?_), List.map_congr_left fun c _ => ?_, List.filter_congr fun e _ => ?_⟩
  · rw [Context.decided_reconciled, Context.reconciled_eq]
    rw [apply_ite (Option.map c.record), apply_ite (Option.map c.record)]
    rfl
  · rw [Context.decided_reconciled, Context.reconciled_isSome]
    rfl
  · refine congrArg not (congrArg (List.any s.req.contexts) (funext fun c => ?_))
    rw [Context.reconciled_isSome]
    by_cases hst : c.state = .withdrawing
    · simp [hst, Context.asks, Entry.waits]
    · simp [beq_false_of_ne hst]

/-- Settles O44. -/
theorem snapTailInstallsAGoodShadow : Obligations.SnapTailInstallsAGoodShadow := by
  unfold Obligations.SnapTailInstallsAGoodShadow
  intro h check a s sh hq hs hr hn hi hsh hsrc
  dsimp only
  let f : HeardFrame := { kind := .snapTail, head := h, bytes := wordBytes check, answers := a }
  have run := exec_heard_completed (c := .snapTail (.heard h check) a) (f := f) rfl hs rfl hr fun he => absurd he hn
  have follows := s.delivered_holdFollows f
  obtain ⟨port, sync, pending⟩ := State.heardHold_of_noIntrusion (f := f) hi
  have size : (s.heardHold f).tableSize = s.tableSize := s.heardHold_tableSize f
  have tail : s.delivered f (s.heardHold f) = if sh.good s.tableSize check then (s.heardHold f).settleShadow sh else (s.heardHold f).dropShadow := by
    have word : s.delivered f (s.heardHold f) = (s.heardHold f).takeTail h.station (wordOf (hiByte check) (loByte check)) := rfl
    have open_ : (s.heardHold f).sync.shadow = some sh := by rw [sync]; exact hsh
    rw [word, wordOf_wordBytes]
    simp only [State.takeTail, open_, if_neg (not_not.2 hsrc), size]
  rw [← Shadow.good_iff]
  have number : (s.heardHold f).ctl.number = s.ctl.number := s.heardHold_number f
  have record : sh.roster[(s.heardHold f).ctl.number] = sh.roster[s.ctl.number] := congrArg (fun x : Station => sh.roster[x]) number
  by_cases good : sh.good s.tableSize check = true
  · rw [tail, if_pos good] at run follows
    by_cases present : sh.roster[s.ctl.number] = .present
    · have settles : (s.heardHold f).settleShadow sh = (s.heardHold f).install sh := if_pos (record.trans present)
      rw [settles] at run follows
      obtain ⟨state, flag, replica, shadow, retry, syncReq, reapSet, heartbeat, remaining, -, -⟩ := (s.heardHold f).install_units sh
      rw [port] at replica
      refine ⟨_, run, shadow, follows, fun _ _ => ⟨state, flag, by rw [replica]; rfl, by rw [replica]; rfl, by rw [replica]; rfl, by rw [replica]; rfl,
        fun i c hts h64 hc => ?_, fun x => ?_, reapSet, ?_, syncReq, retry, fun holds waits asks hh hw ha => ?_⟩, fun _ k => absurd present k,
        fun k => absurd good k⟩
      · have within : i < s.port.tableSize := hts
        rw [replica, s.port.installed_entry sh i h64, PortUnit.entryWith, if_pos within, hc]
        rfl
      · rw [remaining, State.heardHold_leaseUs, number]
      · rw [heartbeat, State.heardHold_leaseUs]
      · have reconciles := (s.heardHold f).install_reconciles sh holds waits asks (by rw [number]; exact hh) (by rw [number]; exact hw) ha
        rwa [State.heardHold_req, State.heardHold_sendList] at reconciles
    · have settles : (s.heardHold f).settleShadow sh = (s.heardHold f).expel .evicted .evicted 0#16 := if_neg fun k => present (record.symm.trans k)
      rw [settles] at run follows
      refine ⟨_, run, rfl, follows, fun _ k => absurd k present, fun _ _ => ⟨rfl, by simp, Replica.isEmptyForm_of_eq (by simp), State.expel_sendList .., ?_⟩,
        fun k => absurd good k⟩
      rw [State.expel_req, State.heardHold_req]
      exact s.req.evictAll_eq 0#16
  · rw [tail, if_neg good] at run follows
    exact ⟨_, run, rfl, follows, fun k => absurd k good, fun k => absurd k good, fun _ => ⟨by simp, by simp, rfl, by simp, port,
      State.heardHold_cleanly s f rfl rfl⟩⟩

end Sys2Proof.Machine
end

section
/-! Outcomes and grants at the request unit (R22, R142, R143, R147, R148). -/

namespace Sys2Proof.Machine

/-! ### The outcome of the station's own frame -/

/-- Only a table frame has an outcome. -/
theorem Replica.apply_outcome_of_roster (r : Replica) (ts : Nat) (x : Station) {b : StateBody} (h : b = .join ∨ b = .leave ∨ ∃ t, b = .reap t) :
    (r.apply ts x b).outcome = none := by
  have effect : (r.effect ts x b).outcome = none := by
    rcases h with rfl | rfl | ⟨t, rfl⟩
    · simp only [Replica.effect]
      split <;> rfl
    · rfl
    · simp only [Replica.effect]
      split
      · split <;> rfl
      · rfl
  unfold Replica.apply
  dsimp only
  split
  · exact effect
  · rfl

/-- An apply whose grants are others' reaches the requests by its outcome alone. -/
theorem State.applied_requests_of_no_grant {s : State} {x : Station} {b : StateBody} (own : Bool) (tag : Option Byte)
    (h : ∀ g ∈ (s.replica.apply s.tableSize x b).grants, g.grant.waiter.station ≠ s.ctl.number) :
    (s.applied own tag x b).req =
      (({ s with replica := (s.replica.apply s.tableSize x b).replica } : State).outcomeTaken tag (s.replica.apply s.tableSize x b)).req ∧
    (s.applied own tag x b).cont.sendList =
      (({ s with replica := (s.replica.apply s.tableSize x b).replica } : State).outcomeTaken tag (s.replica.apply s.tableSize x b)).cont.sendList := by
  have heartbeat : ∀ t : State, (if own then t.restartHeartbeat else t).req = t.req ∧ (if own then t.restartHeartbeat else t).cont.sendList = t.cont.sendList := by
    intro t
    split <;> simp
  unfold State.applied
  dsimp only
  rw [State.dropReaped_req, (heartbeat _).1, State.notices_of_others _ _ _ (by simpa using h), State.dropReaped_cont_sendList, (heartbeat _).2]
  exact ⟨rfl, rfl⟩

section takeOutcome
variable {s : State} {c : Context} (hl : s.req.Lawful) (hc : c ∈ s.req.contexts) (gen n : Word)
include hl hc

theorem State.takeOutcome_final (hst : c.state = .transmitting) {code : OutcomeCode} {res : Result} (hres : code.result = some res) :
    (s.takeOutcome c.tag code gen n).req.queue =
      s.req.queue ++ [c.record { result := res, tooLate := c.marked, generation := gen, sequence := n }] ∧
    (s.takeOutcome c.tag code gen n).cont = s.cont := by
  simp only [State.takeOutcome, RequestUnit.find_of_mem hl.tags hc, hst, hres]
  exact ⟨RequestUnit.completeTag_queue hl hc (by rw [hst]; simp) _, trivial⟩

theorem State.takeOutcome_queued (hst : c.state = .transmitting) (hm : c.cause = .none) :
    (s.takeOutcome c.tag .queued gen n).req.find c.tag = some { c with state := .waiting } ∧
    (s.takeOutcome c.tag .queued gen n).req.queue = s.req.queue ∧ (s.takeOutcome c.tag .queued gen n).cont = s.cont := by
  have found := RequestUnit.find_of_mem hl.tags hc
  have unmarked : c.marked = false := by simp [Context.marked, hm]
  simp only [State.takeOutcome, found, hst, OutcomeCode.result, unmarked]
  refine ⟨?_, rfl, rfl⟩
  refine (RequestUnit.find_update s.req c.tag c.tag (fun d => { d with state := .waiting }) fun _ => rfl).trans ?_
  rw [if_pos rfl, found]
  rfl

theorem State.takeOutcome_queued_marked (hst : c.state = .transmitting) (hm : c.cause ≠ .none) :
    (s.takeOutcome c.tag .queued gen n).req.find c.tag = some { c with state := .withdrawing, withdrawPhase := .queued } ∧
    (s.takeOutcome c.tag .queued gen n).req.queue = s.req.queue ∧
    (s.takeOutcome c.tag .queued gen n).cont.sendList = s.cont.sendList ++ [c.withdrawEntry] := by
  have found := RequestUnit.find_of_mem hl.tags hc
  have marked : c.marked = true := by simp [Context.marked, hm]
  simp only [State.takeOutcome, found, hst, OutcomeCode.result, marked, if_true]
  refine ⟨?_, rfl, rfl⟩
  refine (RequestUnit.find_update s.req c.tag c.tag Context.withdraw fun _ => rfl).trans ?_
  rw [if_pos rfl, found]
  rfl

theorem State.takeOutcome_withdrawn (hst : c.state = .withdrawing) {res : Result} (hres : c.cause.result = some res) (code : OutcomeCode) :
    (s.takeOutcome c.tag code gen n).req.queue =
      s.req.queue ++ [c.record { result := res, tooLate := false, generation := gen, sequence := n }] ∧
    (s.takeOutcome c.tag code gen n).cont = s.cont := by
  simp only [State.takeOutcome, RequestUnit.find_of_mem hl.tags hc, hst]
  exact ⟨(RequestUnit.completeCause_of_marked hl hc (by rw [hst]; simp) hres gen n).1, trivial⟩

end takeOutcome

/-- Settles O32. -/
theorem outcomeOfTheOwnFrameDecidesItsContext : Obligations.OutcomeOfTheOwnFrameDecidesItsContext := by
  unfold Obligations.OutcomeOfTheOwnFrameDecidesItsContext
  intro c k a s tag f b x code gen hc h hb hleave hjoin ha hr hg law hx htag outcome others
  subst htag
  let u := (s.sentHold (.entry x.tag) f a).endSource (.entry x.tag)
  have replica : u.replica = s.replica := by simp [u]
  have size : u.tableSize = s.tableSize := (congrArg PortUnit.tableSize (State.endSource_port ..)).trans (s.sentHold_tableSize ..)
  have number : u.ctl.number = s.ctl.number := by simp [u]
  have req : u.req = s.req := by simp [u]
  have list : u.cont.sendList = s.cont.sendList.filter fun e => e.tag != x.tag := by
    have removed : u.cont.sendList = (s.sentHold (.entry x.tag) f a).cont.sendList.filter fun e => e.tag != x.tag := rfl
    rw [removed, State.sentHold_sendList]
  have table : ∀ {k : Prop}, (k → b = .join ∨ b = .leave ∨ ∃ t, b = .reap t) → ¬ k := fun hk k => by
    rw [s.replica.apply_outcome_of_roster s.tableSize s.ctl.number (hk k)] at outcome
    cases outcome
  have run := exec_own_applied hc h hb hjoin ha hr hg
  have peer := State.applyFrame_of_peer (s := u) (own := true) (x := s.ctl.number) (b := b) (some x.tag) (fun k => absurd k (table fun k => .inr (.inl k)))
    (fun k => absurd k (table fun k => .inl k)) (table fun ⟨t, k, _⟩ => .inr (.inr ⟨t, k⟩))
  obtain ⟨reqs, lists⟩ := State.applied_requests_of_no_grant (s := u) (x := s.ctl.number) (b := b) true (some x.tag)
    (by rw [replica, size, number]; exact others)
  let v : State := { u with replica := (u.replica.apply u.tableSize s.ctl.number b).replica }
  have taken : v.outcomeTaken (some x.tag) (u.replica.apply u.tableSize s.ctl.number b) =
      v.takeOutcome x.tag code gen (s.replica.sequence + 1#16) := by
    rw [replica, size]
    simp only [State.outcomeTaken, outcome, (s.replica.apply_sequence_valid s.tableSize s.ctl.number b).1]
  have lawful : v.req.Lawful := by rw [show v.req = s.req from req]; exact (s.requestLaw_iff.1 law).1
  have mem : x ∈ v.req.contexts := by rw [show v.req = s.req from req]; exact hx
  rw [taken] at reqs lists
  refine ⟨_, run.trans (congrArg Host.Outcome.next peer), ?_⟩
  rw [State.peerEffects_req, State.peerEffects_cont, reqs, lists, ← list, ← req]
  refine ⟨fun hst res hres => ?_, fun hst hq hm => ?_, fun hst hq hm => ?_, fun hst res hres => ?_⟩
  · obtain ⟨queue, cont⟩ := State.takeOutcome_final (s := v) lawful mem gen (s.replica.sequence + 1#16) hst hres
    exact ⟨queue, congrArg ContentionUnit.sendList cont⟩
  · subst hq
    obtain ⟨found, queue, cont⟩ := State.takeOutcome_queued (s := v) lawful mem gen (s.replica.sequence + 1#16) hst hm
    exact ⟨found, queue, congrArg ContentionUnit.sendList cont⟩
  · subst hq
    exact State.takeOutcome_queued_marked (s := v) lawful mem gen (s.replica.sequence + 1#16) hst hm
  · obtain ⟨queue, cont⟩ := State.takeOutcome_withdrawn (s := v) lawful mem gen (s.replica.sequence + 1#16) hst hres code
    exact ⟨queue, congrArg ContentionUnit.sendList cont⟩

end Sys2Proof.Machine
end

section
/-! Grants to the local station (R20, R22, R143). -/

namespace Sys2Proof.Machine

/-! ### No station is granted twice at one resource -/

theorem Entry.promote_grants_nodup {e : Entry} (h : (e.waiters.map Waiter.station).Nodup) : (e.promote.2.map fun g => g.waiter.station).Nodup := by
  have split : e.promote.2.map Grant.waiter ++ e.promote.1.waiters = e.waiters := promoteFrom_split e.waiters e
  rw [← split, List.map_append, List.map_map] at h
  exact (List.nodup_append.1 h).1

section entry
variable {e : Entry} (h : (e.waiters.map Waiter.station).Nodup)
include h

theorem Entry.dropHolder_waiters_nodup (x : Station) : ((e.dropHolder x).waiters.map Waiter.station).Nodup := by
  unfold Entry.dropHolder
  split <;> exact h

theorem Entry.dropWaiter_waiters_nodup (x : Station) : ((e.dropWaiter x).waiters.map Waiter.station).Nodup :=
  h.sublist (List.filter_sublist.map _)

theorem Entry.remove_grants_nodup (x : Station) : ((e.remove x).2.map fun g => g.waiter.station).Nodup :=
  Entry.promote_grants_nodup (Entry.dropWaiter_waiters_nodup (Entry.dropHolder_waiters_nodup h x) x)

theorem Entry.applyRelease_grants_nodup (x : Station) : ((e.applyRelease x).grants.map fun g => g.waiter.station).Nodup := by
  cases hx : e.holders.has x with
  | true => rw [Entry.applyRelease_of_holder hx]; exact Entry.promote_grants_nodup (Entry.dropHolder_waiters_nodup h x)
  | false => rw [Entry.applyRelease_of_not_holder hx]; exact List.nodup_nil

theorem Entry.applyWithdraw_grants_nodup (x : Station) : ((e.applyWithdraw x).grants.map fun g => g.waiter.station).Nodup := by
  cases hx : e.waits x with
  | true => rw [Entry.applyWithdraw_of_waiter hx]; exact Entry.promote_grants_nodup (Entry.dropWaiter_waiters_nodup h x)
  | false => rw [Entry.applyWithdraw_of_not_waiter hx]; exact List.nodup_nil

theorem Entry.applyDowngrade_grants_nodup (x : Station) : ((e.applyDowngrade x).grants.map fun g => g.waiter.station).Nodup := by
  by_cases hx : e.state ≠ .exclusive ∨ e.holders.has x = false
  · rw [Entry.applyDowngrade_of_not_exclusive hx]; exact List.nodup_nil
  · simp only [not_or, ne_eq, not_not, Bool.not_eq_false] at hx
    cases ho : e.sharedOk with
    | true => rw [Entry.applyDowngrade_of_holder hx.1 hx.2 ho]; exact Entry.promote_grants_nodup (e := { e with state := .shared }) h
    | false => rw [Entry.applyDowngrade_of_not_sharedOk hx.1 hx.2 ho]; exact List.nodup_nil

end entry

/-- The resource and the station of a grant. -/
def TableGrant.place (g : TableGrant) : Nat × Station := (g.resource, g.grant.waiter.station)

theorem TableGrant.at_nodup {grants : List Grant} (h : (grants.map fun g => g.waiter.station).Nodup) (i : Nat) :
    ((grants.map fun g => ({ resource := i, grant := g } : TableGrant)).map TableGrant.place).Nodup := by
  rw [List.map_map]
  exact List.Nodup.of_map Prod.snd (by rw [List.map_map]; exact h)

section replica
variable {r : Replica} (h : ∀ i, ((r.entry i).waiters.map Waiter.station).Nodup) (ts : Nat) (x : Station)
include h

theorem Replica.removeStation_grants_nodup : ((r.removeStation ts x).grants.map TableGrant.place).Nodup := by
  rw [Replica.removeStation_grants, List.map_flatMap, List.nodup_flatMap]
  refine ⟨fun i _ => TableGrant.at_nodup (Entry.remove_grants_nodup (h i) x) i, List.pairwise_lt_range.imp fun {i j} hij p hi hj => ?_⟩
  have resource : ∀ {k : Nat}, p ∈ List.map TableGrant.place (((r.entry k).remove x).2.map fun g => ({ resource := k, grant := g } : TableGrant)) →
      p.1 = k := fun hp => by
    simp only [List.mem_map, exists_exists_and_eq_and] at hp
    obtain ⟨g, -, rfl⟩ := hp
    rfl
  exact hij.ne ((resource hi).symm.trans (resource hj))

theorem Replica.effect_grants_nodup (b : StateBody) : ((r.effect ts x b).grants.map TableGrant.place).Nodup := by
  have moved : ∀ y m, (((r.setMembership y m).removeStation ts y).grants.map TableGrant.place).Nodup := fun y m =>
    Replica.removeStation_grants_nodup (r := r.setMembership y m) h ts y
  cases b with
  | claim res m w tag => exact TableGrant.at_nodup (by rw [Entry.applyClaim_grants]; exact List.nodup_nil) _
  | release res => exact TableGrant.at_nodup (Entry.applyRelease_grants_nodup (h _) x) _
  | withdraw res => exact TableGrant.at_nodup (Entry.applyWithdraw_grants_nodup (h _) x) _
  | downgrade res => exact TableGrant.at_nodup (Entry.applyDowngrade_grants_nodup (h _) x) _
  | join =>
    simp only [Replica.effect]
    split
    · exact Replica.removeStation_grants_nodup h ts x
    · exact List.nodup_nil
  | leave => exact moved x .absent
  | heartbeat => exact List.nodup_nil
  | reap target =>
    simp only [Replica.effect]
    split
    · split
      · exact moved _ .lapsed
      · exact List.nodup_nil
    · exact List.nodup_nil

theorem Replica.apply_grants_nodup (b : StateBody) : ((r.apply ts x b).grants.map TableGrant.place).Nodup := by
  unfold Replica.apply
  dsimp only
  split
  · exact Replica.effect_grants_nodup h ts x b
  · exact List.nodup_nil

end replica

/-- At most one grant to the local station for each resource. -/
theorem State.grantsHere_nodup {s : State} (h : s.replica.lawful s.tableSize) (x : Station) (b : StateBody) :
    ((s.grantsHere (s.replica.apply s.tableSize x b)).map TableGrant.resource).Nodup := by
  have places := Replica.apply_grants_nodup (fun i => (h.1 i).2.1) s.tableSize x b
  rw [List.Nodup, List.pairwise_map] at places ⊢
  refine (places.sublist List.filter_sublist).imp_of_mem fun {g k} hg hk hne same => hne ?_
  have here : ∀ {g}, g ∈ s.grantsHere (s.replica.apply s.tableSize x b) → g.grant.waiter.station = s.ctl.number := fun hg => by
    simpa using (List.mem_filter.1 hg).2
  exact Prod.ext same ((here hg).trans (here hk).symm)

/-! ### Notices -/

/-- A context that a grant names does not stay open to another. -/
theorem TableGrant.names_iff (g : TableGrant) (c : Context) : g.names c = true ↔
    c.tag = g.grant.waiter.tag ∧ c.resource.toNat = g.resource ∧ (c.state = .waiting ∨ c.state = .withdrawing) := by
  simp [TableGrant.names, and_assoc]

theorem Context.noticed_eq (g : TableGrant) (n : Word) (c : Context) : Context.noticed g.grant.waiter.tag g.resource g.grant.generation n c =
    if g.names c = true then some { result := .granted, tooLate := c.state == .withdrawing, generation := g.grant.generation, sequence := n } else none := by
  simp only [Context.noticed, TableGrant.names_iff]

theorem Context.decided_noticed (g : TableGrant) (n : Word) (c : Context) :
    (c.decided (Context.noticed g.grant.waiter.tag g.resource g.grant.generation n)) =
      if g.names c = true then some { result := .granted, tooLate := c.state == .withdrawing, generation := g.grant.generation, sequence := n } else none := by
  unfold Context.decided
  rw [Context.noticed_eq]
  by_cases hn : g.names c = true
  · obtain ⟨-, -, hst⟩ := (g.names_iff c).1 hn
    rw [if_pos (by rcases hst with h | h <;> simp [Context.isOpen, h])]
  · simp [hn]

/-- With no key twice, a search by the key finds all there is. -/
theorem filterMap_eq_find?_toList {α β γ : Type} {f : α → β} {key : β} {p : α → Bool} (hp : ∀ a, p a = true → f a = key) (k : α → γ) :
    ∀ {l : List α}, (l.map f).Nodup → (l.filterMap fun a => if p a = true then some (k a) else none) = ((l.find? p).map k).toList
  | [], _ => rfl
  | a :: l, h => by
    rw [List.map_cons, List.nodup_cons] at h
    by_cases ha : p a = true
    · have rest : (l.filterMap fun b => if p b = true then some (k b) else none) = [] := by
        rw [List.filterMap_eq_nil_iff]
        intro b hb
        refine if_neg fun hpb => h.1 ?_
        rw [hp a ha, ← hp b hpb]
        exact List.mem_map_of_mem hb
      simp [ha, rest]
    · simp [ha, filterMap_eq_find?_toList hp k h.2]

/-- One grant to the local station settles. -/
theorem State.notice_settles {s : State} (h : (s.req.contexts.map Context.tag).Nodup) {g : TableGrant} (hg : g.grant.waiter.station = s.ctl.number) (n : Word) :
    s.settlesGrants (s.notice n g) [g] n := by
  have notice : s.notice n g =
      { s with req := s.req.complete (Context.noticed g.grant.waiter.tag g.resource g.grant.generation n),
               cont := if s.req.contexts.any fun c =>
                   (Context.noticed g.grant.waiter.tag g.resource g.grant.generation n c).isSome && c.state == .withdrawing
                 then s.cont.removeEntry g.grant.waiter.tag else s.cont } := if_pos hg
  have isSome : ∀ c, (Context.noticed g.grant.waiter.tag g.resource g.grant.generation n c).isSome = g.names c := fun c => by
    rw [Context.noticed_eq]
    cases g.names c <;> rfl
  rw [notice]
  refine ⟨?_, ?_, ?_⟩
  · dsimp only
    rw [RequestUnit.complete_queue]
    simp only [Context.decided_noticed, apply_ite (Option.map _), Option.map_some, Option.map_none, List.filterMap_cons, List.filterMap_nil]
    rw [filterMap_eq_find?_toList (fun c hc => ((g.names_iff c).1 hc).1) (fun c => c.record _) h]
    cases s.req.contexts.find? g.names <;> rfl
  · refine List.map_congr_left fun c _ => ?_
    rw [Context.decided_noticed, List.any_cons, List.any_nil, Bool.or_false]
    cases g.names c <;> rfl
  · simp only [isSome, List.any_cons, List.any_nil, Bool.or_false]
    have tags : ∀ e : SendEntry, (s.req.contexts.any fun c => c.tag == e.tag && c.state == .withdrawing && g.names c) =
        (e.tag == g.grant.waiter.tag && s.req.contexts.any fun c => g.names c && c.state == .withdrawing) := fun e => by
      rw [Bool.eq_iff_iff]
      simp only [List.any_eq_true, Bool.and_eq_true, beq_iff_eq]
      constructor
      · rintro ⟨c, hc, ⟨ht, hw⟩, hn⟩
        exact ⟨ht.symm.trans ((g.names_iff c).1 hn).1, c, hc, hn, hw⟩
      · rintro ⟨ht, c, hc, hn, hw⟩
        exact ⟨c, hc, ⟨((g.names_iff c).1 hn).1.trans ht.symm, hw⟩, hn⟩
    simp only [tags]
    cases s.req.contexts.any fun c => g.names c && c.state == .withdrawing with
    | true => simp [ContentionUnit.removeEntry, ContentionUnit.removeEntries, ContentionUnit.stopArbitration]
    | false => simp

/-- A grant at one resource does not touch what a grant at another names. -/
theorem TableGrant.names_settled {g k : TableGrant} (h : k.resource ≠ g.resource) (c : Context) :
    k.names (if g.names c = true then c.done else c) = k.names c := by
  split
  next hn =>
    obtain ⟨-, resource, -⟩ := (g.names_iff c).1 hn
    have other : k.names c = false := Bool.eq_false_iff.2 fun hk => h (((k.names_iff c).1 hk).2.1.symm.trans resource)
    rw [other]
    simp [TableGrant.names, Context.done]
  next => rfl

/-- Grants at other resources settle one behind the other. -/
theorem State.settlesGrants_cons {s t u : State} {g : TableGrant} {gs : List TableGrant} {n : Word} (hg : s.settlesGrants t [g] n)
    (hgs : t.settlesGrants u gs n) (h : ∀ k ∈ gs, k.resource ≠ g.resource) : s.settlesGrants u (g :: gs) n := by
  obtain ⟨queue, contexts, list⟩ := hg
  obtain ⟨queue', contexts', list'⟩ := hgs
  simp only [List.any_cons, List.any_nil, Bool.or_false] at contexts list
  have any : ∀ c : Context, (gs.any fun k => k.names (if g.names c = true then c.done else c)) = gs.any fun k => k.names c := fun c => by
    rw [Bool.eq_iff_iff]
    simp only [List.any_eq_true]
    exact exists_congr fun k => and_congr_right fun hk => by rw [TableGrant.names_settled (h k hk)]
  refine ⟨?_, ?_, ?_⟩
  · rw [queue', queue, contexts, List.append_assoc]
    refine congrArg (s.req.queue ++ ·) ?_
    rw [← List.singleton_append (l := gs), List.filterMap_append]
    refine congrArg _ (List.filterMap_congr fun k hk => ?_)
    have same : (fun c => k.names (if g.names c = true then c.done else c)) = k.names := funext fun c => TableGrant.names_settled (h k hk) c
    rw [List.find?_map, Function.comp_def, same]
    cases hf : s.req.contexts.find? k.names with
    | none => rfl
    | some c =>
      have named : k.names c = true := List.find?_some hf
      have unnamed : g.names c = false := Bool.eq_false_iff.2 fun hn =>
        h k hk (((k.names_iff c).1 named).2.1.symm.trans ((g.names_iff c).1 hn).2.1)
      simp [unnamed]
  · rw [contexts', contexts, List.map_map]
    refine List.map_congr_left fun c _ => ?_
    simp only [Function.comp_apply, any, List.any_cons, Bool.or_eq_true]
    by_cases hn : g.names c = true
    · simp only [hn, if_true, true_or]
      split <;> rfl
    · simp only [hn, Bool.false_eq_true, if_false, false_or]
  · rw [list', list, contexts, List.filter_filter]
    refine List.filter_congr fun e _ => ?_
    rw [← Bool.not_or, List.any_map]
    refine congrArg not ?_
    rw [Bool.eq_iff_iff]
    simp only [Bool.or_eq_true, List.any_eq_true, Function.comp_apply, any, Bool.and_eq_true, beq_iff_eq, List.any_cons]
    rw [← exists_or]
    refine exists_congr fun c => ?_
    by_cases hn : g.names c = true
    · simp [hn, Context.done]
    · simp [hn]

theorem State.notices_settle (n : Word) : ∀ {gs : List TableGrant} {s : State}, (s.req.contexts.map Context.tag).Nodup →
    (∀ g ∈ gs, g.grant.waiter.station = s.ctl.number) → (gs.map TableGrant.resource).Nodup → s.settlesGrants (gs.foldl (fun s g => s.notice n g) s) gs n
  | [], s, _, _, _ => ⟨(List.append_nil _).symm, by simp, (List.filter_eq_self.2 fun e _ => by simp).symm⟩
  | g :: gs, s, h, here, distinct => by
    rw [List.map_cons, List.nodup_cons] at distinct
    have first := State.notice_settles h (here g List.mem_cons_self) n
    have tags : (s.notice n g).req.contexts.map Context.tag = s.req.contexts.map Context.tag := by
      rw [first.2.1, List.map_map]
      refine List.map_congr_left fun c _ => ?_
      simp only [Function.comp_apply]
      split <;> rfl
    refine State.settlesGrants_cons first (State.notices_settle n (by rw [tags]; exact h) (fun k hk => ?_) distinct.2) fun k hk same => distinct.1 ?_
    · rw [here k (List.mem_cons_of_mem g hk)]
      simp
    · rw [← same]
      exact List.mem_map_of_mem hk

/-- The notices of an apply: those of other stations change nothing. -/
theorem State.notices_filter (n : Word) : ∀ (gs : List TableGrant) (s : State),
    gs.foldl (fun s g => s.notice n g) s = (gs.filter fun g => g.grant.waiter.station == s.ctl.number).foldl (fun s g => s.notice n g) s
  | [], _ => rfl
  | g :: gs, s => by
    have number : (s.notice n g).ctl.number = s.ctl.number := by simp
    rw [List.foldl_cons, State.notices_filter n gs, number]
    by_cases hg : g.grant.waiter.station = s.ctl.number
    · rw [List.filter_cons_of_pos (by simpa using hg), List.foldl_cons]
    · have same : s.notice n g = s := if_neg hg
      rw [List.filter_cons_of_neg (by simpa using hg), same]

theorem State.settlesGrants_congr {s t u v : State} {gs : List TableGrant} {n : Word} (h : s.settlesGrants t gs n) (req : u.req = s.req)
    (list : u.cont.sendList = s.cont.sendList) (req' : v.req = t.req) (list' : v.cont.sendList = t.cont.sendList) : u.settlesGrants v gs n := by
  unfold State.settlesGrants at *
  rwa [req, list, req', list']

/-- An apply without an outcome of the station's own settles the grants to it. -/
theorem State.applied_settles {s : State} (law : (s.req.contexts.map Context.tag).Nodup) (own : Bool) (x : Station) (b : StateBody)
    (distinct : ((s.grantsHere (s.replica.apply s.tableSize x b)).map TableGrant.resource).Nodup) :
    s.settlesGrants (s.applied own none x b) (s.grantsHere (s.replica.apply s.tableSize x b)) (s.replica.sequence + 1#16) := by
  have heartbeat : ∀ t : State, (if own then t.restartHeartbeat else t).req = t.req ∧ (if own then t.restartHeartbeat else t).cont.sendList = t.cont.sendList := by
    intro t
    split <;> simp
  have taken : ∀ (u : State) (a : Applied), u.outcomeTaken none a = u := fun _ _ => rfl
  have settled := State.notices_settle (s := { s with replica := (s.replica.apply s.tableSize x b).replica }) (s.replica.sequence + 1#16) law
    (fun g hg => by simpa using (List.mem_filter.1 hg).2) distinct
  have filtered := State.notices_filter (s.replica.sequence + 1#16) (s.replica.apply s.tableSize x b).grants
    { s with replica := (s.replica.apply s.tableSize x b).replica }
  refine State.settlesGrants_congr settled rfl rfl ?_ ?_ <;> unfold State.applied <;> dsimp only
  · rw [State.dropReaped_req, (heartbeat _).1, (s.replica.apply_sequence_valid s.tableSize x b).1, taken, filtered]
    rfl
  · rw [State.dropReaped_cont_sendList, (heartbeat _).2, (s.replica.apply_sequence_valid s.tableSize x b).1, taken, filtered]
    rfl

/-- A state frame heard and applied settles the grants to the local station. -/
theorem exec_heard_settles {c : Instr} {f : HeardFrame} {b : StateBody} {s : State} (hc : Instr.heardFrame c = some f)
    (hb : stateBodyOf f.kind f.bytes = some b) (ha : s.ctl.state.applies = true) (hs : s.canHear = true) (hw : s.wellFormedHere f = true)
    (hr : f.answers.reject = false) (hg : s.agreesWith f) (hn : f.head.station ≠ s.ctl.number) (hreap : ¬ b.reaps s.ctl.number) (law : s.requestLaw)
    (distinct : ((s.grantsHere (s.replica.apply s.tableSize f.head.station b)).map TableGrant.resource).Nodup) :
    ∃ t, exec c s = .next t ∧ t.replica = (s.replica.apply s.tableSize f.head.station b).replica ∧
      s.settlesGrants t (s.grantsHere (s.replica.apply s.tableSize f.head.station b)) (s.replica.sequence + 1#16) := by
  have peer := State.applyFrame_of_peer (s := s.heardHold f) (own := false) (x := f.head.station) (b := b) none (fun _ => rfl) (fun _ => by simpa using hn)
    (by simpa using hreap)
  have here : (s.heardHold f).grantsHere = s.grantsHere := by
    unfold State.grantsHere
    rw [State.heardHold_number]
  have settled := State.applied_settles (s := s.heardHold f) (by rw [State.heardHold_req]; exact (s.requestLaw_iff.1 law).1.tags) false f.head.station b
    (by rw [here, State.heardHold_replica, State.heardHold_tableSize]; exact distinct)
  rw [here, State.heardHold_replica, State.heardHold_tableSize] at settled
  refine ⟨_, (exec_heard_applied hc hb ha hs hw hr hg hn).trans (congrArg Host.Outcome.next peer), ?_,
    State.settlesGrants_congr settled (by simp) (by simp) (by simp) (by simp)⟩
  simp

/-! ### One grant -/

/-- What one grant to the local station does to the context it names, and without one. -/
theorem State.settlesGrants_one {s t : State} {w : Waiter} {i : Nat} {gen n : Word} (law : (s.req.contexts.map Context.tag).Nodup)
    (h : s.settlesGrants t [{ resource := i, grant := { waiter := w, generation := gen } }] n) :
    (∀ c ∈ s.req.contexts, c.tag = w.tag → c.resource.toNat = i → c.state = .waiting ∨ c.state = .withdrawing →
      t.req.queue = s.req.queue ++ [c.record { result := .granted, tooLate := c.state == .withdrawing, generation := gen, sequence := n }] ∧
      (t.req.find w.tag).map Context.state = some .done ∧
      t.cont.sendList = s.cont.sendList.filter fun e => !(c.state == .withdrawing && e.tag == w.tag)) ∧
    ((∀ c ∈ s.req.contexts, c.tag = w.tag → c.resource.toNat = i → c.state ≠ .waiting ∧ c.state ≠ .withdrawing) →
      t.req.queue = s.req.queue ∧ t.cont.sendList = s.cont.sendList) := by
  let g : TableGrant := { resource := i, grant := { waiter := w, generation := gen } }
  obtain ⟨queue, contexts, list⟩ := h
  simp only [List.any_cons, List.any_nil, Bool.or_false] at contexts list
  have one : ∀ F : TableGrant → Option CompletionRecord, [g].filterMap F = (F g).toList := fun F => by cases hF : F g <;> simp [hF]
  refine ⟨fun c hc ht hi hst => ?_, fun unasked => ?_⟩
  · have named : g.names c = true := (g.names_iff c).2 ⟨ht, hi, hst⟩
    have alone : ∀ d ∈ s.req.contexts, g.names d = true → d = c := fun d hd hn =>
      List.inj_on_of_nodup_map law hd hc (((g.names_iff d).1 hn).1.trans ht.symm)
    have found : s.req.contexts.find? g.names = some c := by
      cases hf : s.req.contexts.find? g.names with
      | none => exact absurd named (List.find?_eq_none.1 hf c hc)
      | some d => rw [alone d (List.mem_of_find?_eq_some hf) (List.find?_some hf)]
    refine ⟨?_, ?_, list.trans (List.filter_congr fun e _ => congrArg not ?_)⟩
    · rw [queue, one, found]
      rfl
    · have tags : (t.req.contexts.map Context.tag).Nodup := by
        rw [contexts, List.map_map]
        refine (List.map_congr_left fun d _ => ?_ : _ = s.req.contexts.map Context.tag) ▸ law
        simp only [Function.comp_apply]
        split <;> rfl
      have mem : c.done ∈ t.req.contexts := by
        rw [contexts]
        exact List.mem_map.2 ⟨c, hc, if_pos named⟩
      rw [← ht, show c.tag = c.done.tag from rfl, RequestUnit.find_of_mem tags mem]
      rfl
    · rw [Bool.eq_iff_iff]
      simp only [List.any_eq_true, Bool.and_eq_true, beq_iff_eq]
      constructor
      · rintro ⟨d, hd, ⟨hte, hw⟩, hn⟩
        obtain rfl := alone d hd hn
        exact ⟨hw, hte.symm.trans ht⟩
      · rintro ⟨hw, hte⟩
        exact ⟨c, hc, ⟨ht.trans hte.symm, hw⟩, named⟩
  · have unnamed : ∀ c ∈ s.req.contexts, g.names c = false := fun c hc => Bool.eq_false_iff.2 fun hn => by
      obtain ⟨ht, hi, hst⟩ := (g.names_iff c).1 hn
      rcases hst with hst | hst
      · exact (unasked c hc ht hi).1 hst
      · exact (unasked c hc ht hi).2 hst
    have found : s.req.contexts.find? g.names = none := List.find?_eq_none.2 fun c hc => by rw [unnamed c hc]; decide
    refine ⟨?_, list.trans (List.filter_eq_self.2 fun e _ => ?_)⟩
    · rw [queue, one, found]
      exact List.append_nil _
    · rw [Bool.not_eq_true', List.any_eq_false]
      intro c hc
      have := unnamed c hc
      simp_all [g]

/-- A RELEASE by the sole EXCLUSIVE holder before an EXCL head waiter grants that waiter (R17, R20). -/
theorem Replica.apply_release_grants {r : Replica} {ts : Nat} {x : Station} {res : Byte} {w : Waiter} {ws : List Waiter} (hres : res.toNat < 64)
    (hx : r.present x = true) (holders : (r.entry res.toNat).holders = StationSet.addStation 0#16 x)
    (waiters : (r.entry res.toNat).waiters = w :: ws) (hm : w.mode = .excl) :
    (r.apply ts x (.release res)).grants =
      [{ resource := res.toNat, grant := { waiter := w, generation := (r.entry res.toNat).generation + 1#16 } }] ∧
    ((r.apply ts x (.release res)).replica.entry res.toNat).holders = StationSet.addStation 0#16 w.station := by
  have release : r.effect ts x (.release res) = r.applyEntry res.toNat fun e => e.applyRelease x := rfl
  obtain ⟨-, -, -, entry, -, grants, -⟩ := Replica.apply_of_entry hx ts release hres
  have held : (r.entry res.toNat).holders.has x = true := by rw [holders]; simp [StationSet.has_addStation]
  have emptied : ((r.entry res.toNat).dropHolder x).holders = 0#16 := by
    rw [Entry.dropHolder_of_holder held, holders]
    refine StationSet.ext_has fun y => ?_
    rw [StationSet.has_dropStation, StationSet.has_addStation]
    by_cases hy : y = x <;> simp [hy, StationSet.has]
  have list : ((r.entry res.toNat).dropHolder x).waiters = w :: ws := by rw [Entry.dropHolder_of_holder held]; exact waiters
  have promoted := Entry.promote_excl list hm emptied
  rw [entry, grants, Entry.applyRelease_of_holder held, Entry.promoted, promoted]
  refine ⟨?_, ?_⟩
  · rw [Entry.dropHolder_of_holder held]; rfl
  · show StationSet.addStation ((r.entry res.toNat).dropHolder x).holders w.station = _
    rw [emptied]

/-- Settles O40. -/
theorem grantToTheLocalStationCompletesItsClaim : Obligations.GrantToTheLocalStationCompletesItsClaim := by
  unfold Obligations.GrantToTheLocalStationCompletesItsClaim
  refine ⟨fun c f b s hc hb ha hs hw hr hg hn hreap law lawful => ?_, fun an x s f h hbody ha hr hg hx law lawful => ?_,
    fun h res a s w ws ha hs hr hseq hn hres hp law sendLaw hst holders waiters hws hm => ?_⟩
  · obtain ⟨t, run, -, settled⟩ := exec_heard_settles hc hb ha hs hw hr hg hn hreap law (State.grantsHere_nodup lawful f.head.station b)
    exact ⟨t, run, settled⟩
  · let u := (s.sentHold (.reap x) f an).endSource (.reap x)
    have replica : u.replica = s.replica := by simp [u]
    have size : u.tableSize = s.tableSize := (congrArg PortUnit.tableSize (State.endSource_port ..)).trans (s.sentHold_tableSize ..)
    have number : u.ctl.number = s.ctl.number := by simp [u]
    have req : u.req = s.req := by simp [u]
    have list : u.cont.sendList = s.cont.sendList := s.sentHold_sendList (.reap x) f an
    have here : u.grantsHere = s.grantsHere := by
      unfold State.grantsHere
      rw [number]
    have kind : stateBodyOf .reap f.body = some (.reap (BitVec.ofNat 8 x.val)) := by rw [hbody]; rfl
    have run := exec_own_applied (c := .reap .own an) rfl h kind (by simp) ha hr hg
    have not_self : ¬ StateBody.reaps (.reap (BitVec.ofNat 8 x.val)) u.ctl.number := by
      rintro ⟨target, same, htarget⟩
      obtain rfl := StateBody.reap.inj same
      rw [reapTarget_ofNat, number] at htarget
      exact hx (Option.some.inj htarget)
    have peer := State.applyFrame_of_peer (s := u) (own := true) (x := s.ctl.number) (b := .reap (BitVec.ofNat 8 x.val)) none nofun nofun not_self
    have settled := State.applied_settles (s := u) (by rw [req]; exact (s.requestLaw_iff.1 law).1.tags) true s.ctl.number (.reap (BitVec.ofNat 8 x.val))
      (by rw [here, replica, size]; exact State.grantsHere_nodup lawful ..)
    rw [here, replica, size] at settled
    exact ⟨_, run.trans (congrArg Host.Outcome.next peer), State.settlesGrants_congr settled req.symm list.symm (by simp) (by simp)⟩
  · let f : HeardFrame := { kind := .release, head := h, bytes := [res], answers := a }
    have whole : s.wellFormedHere f = true := by simp [f, State.wellFormedHere, lenGood, FrameKind.fixedLen, bodyGood, hres]
    obtain ⟨grants, held⟩ := Replica.apply_release_grants (ts := s.tableSize) (hres.trans_le s.tableSize_le) hp holders waiters hm
    have here : s.grantsHere (s.replica.apply s.tableSize h.station (.release res)) =
        [{ resource := res.toNat, grant := { waiter := w, generation := (s.replica.entry res.toNat).generation + 1#16 } }] := by
      rw [State.grantsHere, grants]
      simp [hws]
    obtain ⟨t, run, replica, settled⟩ := exec_heard_settles (c := .release (.heard h res) a) (f := f) (b := .release res) rfl rfl ha hs whole hr
      (by simpa [f, State.agreesWith] using hseq) hn (by rintro ⟨target, same, -⟩; cases same) law (by rw [here]; simp)
    rw [here] at settled
    obtain ⟨named, unnamed⟩ := State.settlesGrants_one (s.requestLaw_iff.1 law).1.tags settled
    refine ⟨t, run, by rw [replica, ← hws]; exact held, fun c hc ht hr hcs => ?_, fun c hc ht hr hcs => ?_, fun k => unnamed fun c hc ht hr => ?_⟩
    · obtain ⟨queue, found, list⟩ := named c hc ht (by rw [hr]) (.inl hcs)
      refine ⟨by rw [queue, hcs]; rfl, found, ?_⟩
      rw [list, hcs]
      exact List.filter_eq_self.2 fun e _ => rfl
    · obtain ⟨queue, found, list⟩ := named c hc ht (by rw [hr]) (.inr hcs)
      refine ⟨by rw [queue, hcs]; rfl, found, ?_⟩
      rw [list, hcs]
      rfl
    · exact k c hc ht (BitVec.eq_of_toNat_eq hr)

end Sys2Proof.Machine
end

section
/-! The choice of the frame to offer (Tables 4-2 and 4-3, R71, R81). -/

namespace Sys2Proof.Machine

/-! ### Readiness, class by class -/

theorem mayTry_iff (n : Nat) : mayTry n = true ↔ n < 16 := decide_eq_true_iff

theorem mayTry_eq_false (n : Nat) : mayTry n = false ↔ 16 ≤ n := by
  rw [Bool.eq_false_iff, ne_eq, mayTry_iff, not_lt]

theorem StationSet.lowest_eq_some (r : StationSet) (x : Station) :
    r.lowest = some x ↔ r.has x = true ∧ ∀ y : Station, y < x → r.has y = false := by
  refine ⟨fun h => StationSet.lowest_spec h, fun ⟨hx, below⟩ => ?_⟩
  cases hl : r.lowest with
  | none => exact absurd hx (List.find?_eq_none.1 hl x (List.mem_finRange x))
  | some y =>
    obtain ⟨hy, least⟩ := StationSet.lowest_spec hl
    rcases lt_trichotomy x y with h | h | h
    · rw [least x h] at hx; cases hx
    · rw [h]
    · rw [below y h] at hy; cases hy

theorem StationSet.lowest_eq_none (r : StationSet) : r.lowest = none ↔ r = 0#16 := by
  constructor
  · intro h
    refine StationSet.ext_has fun x => ?_
    rw [Bool.eq_false_iff.2 (List.find?_eq_none.1 h x (List.mem_finRange x))]
    simp [StationSet.has]
  · rintro rfl
    exact List.find?_eq_none.2 fun x _ => by simp [StationSet.has]

theorem State.trainFrame_eq_none (s : State) : s.trainFrame = none ↔ s.sync.phase = .none ∨ (s.sync.phase = .head ∧ s.cont.trainIntent = false) := by
  unfold State.trainFrame
  cases s.sync.phase <;> cases s.cont.trainIntent <;> simp

section inStep
variable {s : State} (hs : s.ctl.state = .inStep)
include hs

theorem State.offerClass0_inStep : s.offerClass0 = if s.cont.attempts.train < 16 then s.trainFrame.map fun f => (.train, f) else none := by
  rw [State.offerClass0, if_pos hs]
  simp only [mayTry_iff]

theorem State.offerClass0_inStep_eq_none : s.offerClass0 = none ↔ s.noTrainFrame := by
  rw [State.offerClass0_inStep hs, State.noTrainFrame, ← State.trainFrame_eq_none]
  split
  next h => simp [Nat.not_le.2 h]
  next h => simp [Nat.not_lt.1 h]

end inStep

theorem AttemptCounts.reapFor_lt (a : AttemptCounts) (x : Station) : a.reapFor x < 16 ↔ (a.reapTarget = some x → a.reap < 16) := by
  unfold AttemptCounts.reapFor
  split <;> simp [*]

theorem State.offerClass1_reap {s : State} (hs : s.ctl.state = .inStep) {x : Station} (hx : s.lowestReap x) : s.offerClass1 =
    if s.cont.attempts.reapTarget = some x → s.cont.attempts.reap < 16 then some (.reap x, s.stateFrame .reap [BitVec.ofNat 8 x.val]) else none := by
  rw [State.offerClass1, if_neg (by rw [hs]; decide), if_neg (by rw [hs]; decide), if_pos hs, (StationSet.lowest_eq_some _ x).2 hx]
  simp only [mayTry_iff, AttemptCounts.reapFor_lt]

theorem State.offerClass1_heartbeat {s : State} (hs : s.ctl.state = .inStep) (hr : s.lease.reapSet = 0#16) : s.offerClass1 =
    if s.cont.heartbeatDue = true ∧ s.cont.attempts.heartbeat < 16 then some (.heartbeat, s.stateFrame .heartbeat []) else none := by
  rw [State.offerClass1, if_neg (by rw [hs]; decide), if_neg (by rw [hs]; decide), if_pos hs, (StationSet.lowest_eq_none _).2 hr]
  simp only [Bool.and_eq_true, mayTry_iff]

theorem State.offerClass1_inStep_eq_none {s : State} (hs : s.ctl.state = .inStep) : s.offerClass1 = none ↔ s.noClassOne := by
  unfold State.noClassOne
  cases hl : s.lease.reapSet.lowest with
  | none =>
    have empty := (StationSet.lowest_eq_none _).1 hl
    have unnamed : ∀ x, ¬ s.lowestReap x := fun x hx => by rw [(StationSet.lowest_eq_some _ x).2 hx] at hl; cases hl
    rw [State.offerClass1_heartbeat hs empty]
    simp only [unnamed, false_and, exists_false, false_or, empty, true_and]
    by_cases due : s.cont.heartbeatDue = true <;> simp [due]
  | some x =>
    have low : s.lowestReap x := (StationSet.lowest_eq_some _ x).1 hl
    have only : ∀ y, s.lowestReap y → y = x := fun y hy => Option.some.inj (((StationSet.lowest_eq_some _ y).2 hy).symm.trans hl)
    have full : s.lease.reapSet ≠ 0#16 := fun k => by rw [(StationSet.lowest_eq_none _).2 k] at hl; cases hl
    rw [State.offerClass1_reap hs low]
    simp only [full, false_and, or_false]
    constructor
    · intro h
      by_cases counted : s.cont.attempts.reapTarget = some x → s.cont.attempts.reap < 16
      · rw [if_pos counted] at h; cases h
      · simp only [Classical.not_imp, not_lt] at counted
        exact ⟨x, low, counted⟩
    · rintro ⟨y, hy, target, limit⟩
      obtain rfl := only y hy
      exact if_neg fun k => absurd (k target) (Nat.not_lt.2 limit)

section otherStates
variable {s : State}

theorem State.offerClass0_requesting (h : s.ctl.state.requesting = true) : s.offerClass0 =
    if s.cont.syncReqPending = true ∧ s.cont.attempts.syncReq < 16 then some (.syncReq, .service .syncReq false []) else none := by
  rw [State.offerClass0, if_neg (by rintro k; rw [k] at h; cases h), h]
  simp only [Bool.true_and, Bool.and_eq_true, mayTry_iff]

theorem State.offerClass0_else (hi : s.ctl.state ≠ .inStep) (h : s.ctl.state.requesting = false) : s.offerClass0 = none := by
  rw [State.offerClass0, if_neg hi, h]
  rfl

theorem State.offerClass1_joining (h : s.ctl.state = .joining) : s.offerClass1 =
    if s.cont.joinPending = true ∧ s.cont.attempts.join < 16 then some (.join, s.joinFrame) else none := by
  rw [State.offerClass1, if_pos h]
  simp only [Bool.and_eq_true, mayTry_iff]

theorem State.carriedLeft_iff : s.carriedLeft = true ↔ ∃ e ∈ s.cont.sendList, e.carried = true := List.any_eq_true

theorem State.offerClass1_leaving (h : s.ctl.state = .leaving) : s.offerClass1 =
    if s.cont.leavePending = true ∧ s.carriedLeft = false ∧ s.cont.attempts.leave < 16 then some (.leave, s.stateFrame .leave []) else none := by
  rw [State.offerClass1, if_neg (by rw [h]; decide), if_pos h]
  simp only [Bool.and_eq_true, mayTry_iff, Bool.not_eq_true', and_assoc]

theorem State.offerClass1_else (hj : s.ctl.state ≠ .joining) (hl : s.ctl.state ≠ .leaving) (hi : s.ctl.state ≠ .inStep) : s.offerClass1 = none := by
  rw [State.offerClass1, if_neg hj, if_neg hl, if_neg hi]

end otherStates

/-! ### Entries of the send list -/

/-- The state allows an entry, its count aside (Table 4-2, R71). -/
def State.allowsKindOf (s : State) (e : SendEntry) : Prop := s.ctl.state = .inStep ∨ (s.ctl.state = .leaving ∧ e.carried = true)

theorem State.allowsEntry_iff (s : State) (e : SendEntry) : s.allowsEntry e = true ↔ s.allowsKindOf e ∧ e.attempts < 16 := by
  simp [State.allowsEntry, State.allowsKindOf, mayTry_iff]

theorem SendKind.cls_two (k : SendKind) : (k.frameKind.cls == 2) = true ↔ k ≠ .claim := by cases k <;> decide

theorem SendKind.cls_three (k : SendKind) : (k.frameKind.cls == 3) = true ↔ k = .claim := by cases k <;> decide

theorem State.entryFrame_eq (s : State) (e : SendEntry) : s.entryFrame e = s.frameOf e := by
  unfold State.entryFrame State.frameOf
  cases e.kind <;> rfl

theorem State.offerEntry_of_turnUsed {s : State} (h : s.cont.turnUsed = true) (cls : BitVec 2) : s.offerEntry cls = none := if_pos h

/-- The entry of a class that is chosen is the oldest that may be. -/
theorem State.offerEntry_eq_some {s : State} {cls : BitVec 2} {src : OfferSource} {f : TxFrame} (h : s.offerEntry cls = some (src, f)) :
    s.cont.turnUsed = false ∧ ∃ e ∈ s.cont.sendList, (e.kind.frameKind.cls == cls) = true ∧ s.allowsEntry e = true ∧ src = .entry e.tag ∧ f = s.frameOf e := by
  unfold State.offerEntry at h
  split at h
  · cases h
  · next turn =>
    obtain ⟨e, found, same⟩ := Option.map_eq_some_iff.1 h
    have may := List.find?_some found
    rw [Bool.and_eq_true] at may
    rw [State.entryFrame_eq] at same
    obtain ⟨rfl, rfl⟩ := Prod.mk.inj same
    exact ⟨Bool.eq_false_iff.2 turn, e, List.mem_of_find?_eq_some found, may.1, may.2, rfl, rfl⟩

theorem State.offerEntry_eq_none {s : State} (ht : s.cont.turnUsed = false) {cls : BitVec 2} :
    s.offerEntry cls = none ↔ ∀ e ∈ s.cont.sendList, (e.kind.frameKind.cls == cls) = true → s.allowsEntry e = false := by
  unfold State.offerEntry
  rw [if_neg (by rw [ht]; decide), Option.map_eq_none_iff, List.find?_eq_none]
  simp only [Bool.and_eq_true, not_and, Bool.not_eq_true]

theorem State.offerEntry_oldest {s : State} (ht : s.cont.turnUsed = false) {cls : BitVec 2} {allowed : SendEntry → Prop} {e : SendEntry}
    (same : ∀ x, ((x.kind.frameKind.cls == cls) = true ∧ s.allowsEntry x = true) ↔ allowed x ∧ x.attempts < 16) (h : s.oldestEntry allowed e) :
    s.offerEntry cls = some (.entry e.tag, s.frameOf e) := by
  obtain ⟨before, after, list, ok, count, older⟩ := h
  have found : (s.cont.sendList.find? fun x => x.kind.frameKind.cls == cls && s.allowsEntry x) = some e := by
    rw [List.find?_eq_some_iff_append]
    refine ⟨by simpa using (same e).2 ⟨ok, count⟩, before, after, list, fun x hx => ?_⟩
    rw [Bool.not_eq_true', Bool.eq_false_iff, ne_eq, Bool.and_eq_true, same]
    exact fun k => absurd (older x hx k.1) (Nat.not_le.2 k.2)
  rw [State.offerEntry, if_neg (by rw [ht]; decide), found, ← State.entryFrame_eq]
  rfl

/-- Class 2 before class 3 (Table 4-3). -/
theorem State.entryRows_of {s : State} {allowed : SendEntry → Prop} (chosen : s.chooseOffer = (s.offerEntry 2 <|> s.offerEntry 3))
    (same : ∀ e, s.allowsKindOf e ↔ allowed e) : s.entryRows allowed := by
  have two : ∀ x, ((x.kind.frameKind.cls == 2) = true ∧ s.allowsEntry x = true) ↔ (allowed x ∧ x.kind ≠ .claim) ∧ x.attempts < 16 := fun x => by
    rw [SendKind.cls_two, State.allowsEntry_iff, same]
    tauto
  have three : ∀ x, ((x.kind.frameKind.cls == 3) = true ∧ s.allowsEntry x = true) ↔ (allowed x ∧ x.kind = .claim) ∧ x.attempts < 16 := fun x => by
    rw [SendKind.cls_three, State.allowsEntry_iff, same]
    tauto
  refine ⟨fun ht => ?_, fun ht => ⟨fun e he => ?_, fun e he others => ?_, fun spent => ?_⟩⟩
  · rw [chosen, State.offerEntry_of_turnUsed ht, State.offerEntry_of_turnUsed ht]
    rfl
  · rw [chosen, State.offerEntry_oldest ht two he]
    rfl
  · have no_two : s.offerEntry 2 = none := (State.offerEntry_eq_none ht).2 fun x hx hk => Bool.eq_false_iff.2 fun k => by
      obtain ⟨⟨ok, kind⟩, count⟩ := (two x).1 ⟨hk, k⟩
      exact absurd (others x hx ok kind) (Nat.not_le.2 count)
    rw [chosen, no_two, State.offerEntry_oldest ht three he]
    rfl
  · have no_entry : ∀ cls, s.offerEntry cls = none := fun cls => (State.offerEntry_eq_none ht).2 fun x hx _ => Bool.eq_false_iff.2 fun k => by
      obtain ⟨ok, count⟩ := (s.allowsEntry_iff x).1 k
      exact absurd (spent x hx ((same x).1 ok)) (Nat.not_le.2 count)
    rw [chosen, no_entry, no_entry]
    rfl

theorem State.offerEntry_else {s : State} (hi : s.ctl.state ≠ .inStep) (hl : s.ctl.state ≠ .leaving) (cls : BitVec 2) : s.offerEntry cls = none := by
  cases ht : s.cont.turnUsed with
  | true => exact State.offerEntry_of_turnUsed ht cls
  | false => exact (State.offerEntry_eq_none ht).2 fun e _ _ => by simp [State.allowsEntry, hi, hl]

/-! ### The choice -/

theorem State.chooseOffer_own {s : State} (h : s.cont.hold = some s.ctl.number) :
    s.chooseOffer = if s.serving = true ∧ s.ctl.state = .inStep then s.offerClass0 else none := by
  rw [State.chooseOffer, if_pos h]
  simp only [Bool.and_eq_true, beq_iff_eq]

theorem State.chooseOffer_free {s : State} (h : s.cont.hold ≠ some s.ctl.number) :
    s.chooseOffer = (s.offerClass0 <|> s.offerClass1 <|> s.offerEntry 2 <|> s.offerEntry 3) := if_neg h

theorem State.chooseOffer_of_class0 {s : State} (h : s.cont.hold ≠ some s.ctl.number) {o : OfferSource × TxFrame} (h0 : s.offerClass0 = some o) :
    s.chooseOffer = some o := by rw [State.chooseOffer_free h, h0]; rfl

theorem State.chooseOffer_of_class1 {s : State} (h : s.cont.hold ≠ some s.ctl.number) {o : OfferSource × TxFrame} (h0 : s.offerClass0 = none)
    (h1 : s.offerClass1 = some o) : s.chooseOffer = some o := by rw [State.chooseOffer_free h, h0, h1]; rfl

theorem State.chooseOffer_entries {s : State} (h : s.cont.hold ≠ some s.ctl.number) (h0 : s.offerClass0 = none) (h1 : s.offerClass1 = none) :
    s.chooseOffer = (s.offerEntry 2 <|> s.offerEntry 3) := by rw [State.chooseOffer_free h, h0, h1]; rfl

theorem State.chooseOffer_no_entry {s : State} (hi : s.ctl.state ≠ .inStep) (hl : s.ctl.state ≠ .leaving) (h0 : s.offerClass0 = none)
    (h1 : s.offerClass1 = none) : s.chooseOffer = none := by
  by_cases h : s.cont.hold = some s.ctl.number
  · rw [State.chooseOffer_own h, if_neg fun k => hi k.2]
  · rw [State.chooseOffer_entries h h0 h1, State.offerEntry_else hi hl, State.offerEntry_else hi hl]
    rfl

/-! ### The train's frame -/

section train
variable {s : State} (hs : s.ctl.state = .inStep) (ht : s.cont.attempts.train < 16)
include hs ht

theorem State.offerClass0_train : s.offerClass0 = s.trainFrame.map fun f => (.train, f) := by rw [State.offerClass0_inStep hs, if_pos ht]

theorem State.offerClass0_entries (h : s.sync.phase = .entries) :
    s.offerClass0 = some (.train, { kind := .snapEntry, cont := true, seq := 0xFFFF#16, body := s.entriesBody }) := by
  rw [State.offerClass0_train hs ht, State.trainFrame, h]
  rfl

theorem State.offerClass0_tail (h : s.sync.phase = .tail) :
    s.offerClass0 = some (.train, { kind := .snapTail, cont := false, seq := 0xFFFF#16, body := wordBytes s.sync.sendCheck }) := by
  rw [State.offerClass0_train hs ht, State.trainFrame, h]
  rfl

theorem State.offerClass0_head (h : s.sync.phase = .head) (hi : s.cont.trainIntent = true) :
    s.offerClass0 = some (.train, { kind := .snapHead, cont := true, seq := 0xFFFF#16, body := s.headFields.bytes }) := by
  rw [State.offerClass0_train hs ht, State.trainFrame, h, hi]
  rfl

end train

/-! ### The law of Table 4-2 -/

/-- What any frame chosen satisfies (Table 4-2). -/
def State.ChoiceLaw (s : State) (src : OfferSource) (f : TxFrame) : Prop :=
  (f.kind = .join → s.ctl.state = .joining ∧ f.body.length = 4 ∧ f.body.take 2 = wordBytes s.port.digest) ∧
  (f.kind = .syncReq → s.ctl.state = .syncing ∨ s.ctl.state = .outOfStep) ∧
  (f.kind = .leave → s.ctl.state = .leaving) ∧
  (f.kind = .snapHead ∨ f.kind = .snapEntry ∨ f.kind = .snapTail ∨ f.kind = .reap ∨ f.kind = .heartbeat → s.ctl.state = .inStep) ∧
  (f.kind.isState = true → f.kind ≠ .join → s.ctl.state = .inStep ∨ s.ctl.state = .leaving) ∧
  (f.kind.isState = true → f.kind ≠ .join → f.seq = s.replica.sequence) ∧
  (f.kind.isState = false ∨ f.kind = .join → f.seq = 0xFFFF#16) ∧
  (f.cont = true ↔ f.kind = .snapHead ∨ f.kind = .snapEntry) ∧
  (s.cont.turnUsed = true → f.kind.cls.toNat < 2) ∧
  (s.cont.hold = some s.ctl.number → f.kind = .snapEntry ∨ f.kind = .snapTail) ∧
  (∀ t : Station, src = .reap t → s.noTrainFrame ∧ s.lowestReap t ∧ f.body = [BitVec.ofNat 8 t.val]) ∧
  (src = .heartbeat → s.noTrainFrame ∧ s.lease.reapSet = 0#16) ∧
  (f.kind = .claim → ∀ e ∈ s.cont.sendList, e.kind ≠ .claim → s.ctl.state = .inStep ∨ e.carried = true → 16 ≤ e.attempts) ∧
  (∀ tag : Byte, src = .entry tag → s.ctl.state = .inStep → s.noTrainFrame ∧ s.noClassOne)

theorem StationState.requesting_cases (st : StationState) : st.requesting = true ↔ st = .syncing ∨ st = .outOfStep := by
  cases st <;> simp [StationState.requesting]

theorem State.choiceLaw_class0 {s : State} {src : OfferSource} {f : TxFrame} (h : s.offerClass0 = some (src, f))
    (own : s.cont.hold = some s.ctl.number → s.serving = true ∧ s.ctl.state = .inStep) : s.ChoiceLaw src f := by
  unfold State.ChoiceLaw
  rw [State.serving_iff] at own
  by_cases hi : s.ctl.state = .inStep
  · rw [State.offerClass0_inStep hi] at h
    split at h
    · obtain ⟨g, frame, same⟩ := Option.map_eq_some_iff.1 h
      obtain ⟨rfl, rfl⟩ := Prod.mk.inj same
      unfold State.trainFrame at frame
      cases hp : s.sync.phase <;> simp only [hp, reduceCtorEq, Option.some.injEq, ite_eq_iff] at frame own
      · rcases frame with ⟨-, rfl⟩ | ⟨-, h⟩
        · simpa [TxFrame.service, FrameKind.isState, FrameKind.cls, hi] using own
        · cases h
      · subst frame
        simp [TxFrame.service, FrameKind.isState, FrameKind.cls, hi]
      · subst frame
        simp [TxFrame.service, FrameKind.isState, FrameKind.cls, hi]
    · cases h
  · have free : s.cont.hold ≠ some s.ctl.number := fun k => hi (own k).2
    cases hq : s.ctl.state.requesting with
    | false => rw [State.offerClass0_else hi hq] at h; cases h
    | true =>
      rw [State.offerClass0_requesting hq, ite_eq_iff] at h
      rcases h with ⟨-, h⟩ | ⟨-, h⟩
      · obtain ⟨rfl, rfl⟩ := Prod.mk.inj (Option.some.inj h)
        have states : s.ctl.state = .syncing ∨ s.ctl.state = .outOfStep := (StationState.requesting_cases _).1 hq
        simp [TxFrame.service, FrameKind.isState, FrameKind.cls, free, states]
      · cases h

theorem State.choiceLaw_class1 {s : State} {src : OfferSource} {f : TxFrame} (h0 : s.offerClass0 = none) (h : s.offerClass1 = some (src, f))
    (free : s.cont.hold ≠ some s.ctl.number) : s.ChoiceLaw src f := by
  unfold State.ChoiceLaw
  by_cases hj : s.ctl.state = .joining
  · rw [State.offerClass1_joining hj, ite_eq_iff] at h
    rcases h with ⟨-, h⟩ | ⟨-, h⟩
    · obtain ⟨rfl, rfl⟩ := Prod.mk.inj (Option.some.inj h)
      simp [State.joinFrame, TxFrame.service, FrameKind.isState, FrameKind.cls, free, hj, wordBytes]
    · cases h
  by_cases hl : s.ctl.state = .leaving
  · rw [State.offerClass1_leaving hl, ite_eq_iff] at h
    rcases h with ⟨-, h⟩ | ⟨-, h⟩
    · obtain ⟨rfl, rfl⟩ := Prod.mk.inj (Option.some.inj h)
      simp [State.stateFrame, FrameKind.isState, FrameKind.cls, free, hl]
    · cases h
  by_cases hi : s.ctl.state = .inStep
  · have train := (State.offerClass0_inStep_eq_none hi).1 h0
    cases hr : s.lease.reapSet.lowest with
    | some x =>
      have low : s.lowestReap x := (StationSet.lowest_eq_some _ x).1 hr
      rw [State.offerClass1_reap hi low, ite_eq_iff] at h
      rcases h with ⟨-, h⟩ | ⟨-, h⟩
      · obtain ⟨rfl, rfl⟩ := Prod.mk.inj (Option.some.inj h)
        simp [State.stateFrame, FrameKind.isState, FrameKind.cls, free, hi, train, low]
      · cases h
    | none =>
      have empty := (StationSet.lowest_eq_none _).1 hr
      rw [State.offerClass1_heartbeat hi empty, ite_eq_iff] at h
      rcases h with ⟨-, h⟩ | ⟨-, h⟩
      · obtain ⟨rfl, rfl⟩ := Prod.mk.inj (Option.some.inj h)
        simp [State.stateFrame, FrameKind.isState, FrameKind.cls, free, hi, train, empty]
      · cases h
  · rw [State.offerClass1_else hj hl hi] at h
    cases h

theorem State.choiceLaw_entry {s : State} {src : OfferSource} {f : TxFrame} {cls : BitVec 2} (h0 : s.offerClass0 = none) (h1 : s.offerClass1 = none)
    (h : s.offerEntry cls = some (src, f)) (later : cls = 3 → s.offerEntry 2 = none) (free : s.cont.hold ≠ some s.ctl.number) : s.ChoiceLaw src f := by
  obtain ⟨turn, e, he, kind, allows, rfl, rfl⟩ := State.offerEntry_eq_some h
  obtain ⟨states, -⟩ := (s.allowsEntry_iff e).1 allows
  have inStep_or_leaving : s.ctl.state = .inStep ∨ s.ctl.state = .leaving := states.imp_right And.left
  have rows : s.ctl.state = .inStep → s.noTrainFrame ∧ s.noClassOne := fun hi =>
    ⟨(State.offerClass0_inStep_eq_none hi).1 h0, (State.offerClass1_inStep_eq_none hi).1 h1⟩
  have claims : e.kind = .claim → ∀ d ∈ s.cont.sendList, d.kind ≠ .claim → s.ctl.state = .inStep ∨ d.carried = true → 16 ≤ d.attempts := fun hk d hd hdk hdc => by
    have three : cls = 3 := by rw [hk] at kind; exact (beq_iff_eq.1 kind).symm
    have refused := (State.offerEntry_eq_none turn).1 (later three) d hd ((SendKind.cls_two _).2 hdk)
    refine Nat.not_lt.1 fun count => Bool.eq_false_iff.1 refused ((s.allowsEntry_iff d).2 ⟨?_, count⟩)
    rcases inStep_or_leaving with hi | hl
    · exact .inl hi
    · rcases hdc with hi | hc
      · exact .inl hi
      · exact .inr ⟨hl, hc⟩
  unfold State.ChoiceLaw
  cases hk : e.kind with
  | claim =>
    simp [State.frameOf, hk, SendKind.frameKind, FrameKind.isState, free, turn, inStep_or_leaving]
    exact ⟨claims hk, rows⟩
  | release | downgrade | withdraw =>
    simp [State.frameOf, hk, SendKind.frameKind, FrameKind.isState, free, turn, inStep_or_leaving]
    exact rows

theorem State.choiceLaw {s : State} {src : OfferSource} {f : TxFrame} (h : s.chooseOffer = some (src, f)) : s.ChoiceLaw src f := by
  by_cases own : s.cont.hold = some s.ctl.number
  · rw [State.chooseOffer_own own, ite_eq_iff] at h
    rcases h with ⟨serves, h⟩ | ⟨-, h⟩
    · exact State.choiceLaw_class0 h fun _ => serves
    · cases h
  · rw [State.chooseOffer_free own] at h
    cases h0 : s.offerClass0 with
    | some o => rw [h0] at h; cases h; exact State.choiceLaw_class0 h0 fun k => absurd k own
    | none =>
      cases h1 : s.offerClass1 with
      | some o => rw [h0, h1] at h; cases h; exact State.choiceLaw_class1 h0 h1 own
      | none =>
        cases h2 : s.offerEntry 2 with
        | some o => rw [h0, h1, h2] at h; cases h; exact State.choiceLaw_entry h0 h1 h2 (fun k => absurd k (by decide)) own
        | none => rw [h0, h1, h2] at h; exact State.choiceLaw_entry h0 h1 h (fun _ => h2) own

/-! ### Row by row -/

/-- The rows of an IN_STEP station (Table 4-3). -/
theorem State.inStep_rows {s : State} (own : s.cont.hold ≠ some s.ctl.number) (hs : s.ctl.state = .inStep) :
    (s.noTrainFrame → ∀ x : Station, s.lowestReap x → (s.cont.attempts.reapTarget = some x → s.cont.attempts.reap < 16) →
      s.chooseOffer = some (.reap x, { kind := .reap, cont := false, seq := s.replica.sequence, body := [BitVec.ofNat 8 x.val] })) ∧
    (s.noTrainFrame → s.lease.reapSet = 0#16 → s.cont.heartbeatDue = true → s.cont.attempts.heartbeat < 16 →
      s.chooseOffer = some (.heartbeat, { kind := .heartbeat, cont := false, seq := s.replica.sequence, body := [] })) ∧
    (s.noTrainFrame → s.noClassOne → s.entryRows fun _ => True) := by
  refine ⟨fun h0 x hx count => ?_, fun h0 hr due count => ?_, fun h0 h1 => ?_⟩
  · exact State.chooseOffer_of_class1 own ((State.offerClass0_inStep_eq_none hs).2 h0) (by rw [State.offerClass1_reap hs hx, if_pos count]; rfl)
  · exact State.chooseOffer_of_class1 own ((State.offerClass0_inStep_eq_none hs).2 h0) (by rw [State.offerClass1_heartbeat hs hr, if_pos ⟨due, count⟩]; rfl)
  · exact State.entryRows_of (State.chooseOffer_entries own ((State.offerClass0_inStep_eq_none hs).2 h0) ((State.offerClass1_inStep_eq_none hs).2 h1))
      fun e => by simp [State.allowsKindOf, hs]

/-- The rows of a LEAVING station (R71). -/
theorem State.leaving_rows {s : State} (own : s.cont.hold ≠ some s.ctl.number) (hs : s.ctl.state = .leaving) :
    ((∀ e ∈ s.cont.sendList, e.carried = false) → s.cont.leavePending = true → s.cont.attempts.leave < 16 →
      s.chooseOffer = some (.leave, { kind := .leave, cont := false, seq := s.replica.sequence, body := [] })) ∧
    ((∃ e ∈ s.cont.sendList, e.carried = true) ∨ s.cont.leavePending = false ∨ 16 ≤ s.cont.attempts.leave →
      s.entryRows fun e => e.carried = true) := by
  have no_service : s.offerClass0 = none := State.offerClass0_else (by rw [hs]; decide) (by rw [hs]; rfl)
  refine ⟨fun uncarried pending count => ?_, fun h => ?_⟩
  · have left : s.carriedLeft = false := Bool.eq_false_iff.2 fun k => by
      obtain ⟨e, he, hc⟩ := State.carriedLeft_iff.1 k
      rw [uncarried e he] at hc
      cases hc
    exact State.chooseOffer_of_class1 own no_service (by rw [State.offerClass1_leaving hs, if_pos ⟨pending, left, count⟩]; rfl)
  · have no_leave : s.offerClass1 = none := by
      rw [State.offerClass1_leaving hs]
      refine if_neg fun ⟨pending, left, count⟩ => ?_
      rcases h with h | h | h
      · rw [State.carriedLeft_iff.2 h] at left; cases left
      · rw [h] at pending; cases pending
      · exact absurd count (Nat.not_lt.2 h)
    exact State.entryRows_of (State.chooseOffer_entries own no_service no_leave) fun e => by simp [State.allowsKindOf, hs]

/-- Settles O21. -/
theorem chosenFrameIsAllowedAndInOrder : Obligations.ChosenFrameIsAllowedAndInOrder := by
  unfold Obligations.ChosenFrameIsAllowedAndInOrder
  have unready : ∀ {pending : Bool} {count : Nat}, pending = false ∨ 16 ≤ count → ¬ (pending = true ∧ count < 16) := by
    rintro pending count (rfl | h) ⟨hp, hc⟩
    · cases hp
    · exact absurd hc (Nat.not_lt.2 h)
  refine ⟨fun s src f h => State.choiceLaw h, fun s => ?_⟩
  dsimp only
  refine ⟨fun own hs ht => ⟨fun hp => ?_, fun hp => ?_⟩, fun own h => ?_, fun h => ?_, fun own hs => ⟨fun pending count => ?_, fun h => ?_⟩,
    fun own hs => ⟨fun pending count => ?_, fun h => ?_⟩, fun own hs => ⟨fun ht => ⟨fun hp hi => ?_, fun hp => ?_, fun hp => ?_⟩, State.inStep_rows own hs⟩,
    fun own hs => State.leaving_rows own hs⟩
  · rw [State.chooseOffer_own own, if_pos ⟨s.serving_iff.2 (.inl hp), hs⟩, State.offerClass0_entries hs ht hp]
  · rw [State.chooseOffer_own own, if_pos ⟨s.serving_iff.2 (.inr hp), hs⟩, State.offerClass0_tail hs ht hp]
  · rw [State.chooseOffer_own own]
    by_cases serves : s.serving = true ∧ s.ctl.state = .inStep
    · obtain ⟨serving, hs⟩ := serves
      rw [if_pos ⟨serving, hs⟩, State.offerClass0_inStep_eq_none hs]
      rcases h with h | h | h | h
      · exact absurd hs h
      · exact .inl h
      · exact .inr (.inl h)
      · rw [s.serving_iff, h] at serving
        simp at serving
    · exact if_neg serves
  · have idle : s.ctl.state ≠ .inStep ∧ s.ctl.state ≠ .leaving ∧ s.ctl.state ≠ .joining ∧ s.ctl.state.requesting = false := by
      rcases h with h | h | h | h | h | h <;> simp [h, StationState.requesting]
    obtain ⟨hi, hl, hj, hq⟩ := idle
    exact State.chooseOffer_no_entry hi hl (State.offerClass0_else hi hq) (State.offerClass1_else hj hl hi)
  · exact State.chooseOffer_of_class1 own (State.offerClass0_else (by rw [hs]; decide) (by rw [hs]; rfl))
      (by rw [State.offerClass1_joining hs, if_pos ⟨pending, count⟩]; rfl)
  · refine State.chooseOffer_no_entry (by rw [hs]; decide) (by rw [hs]; decide) (State.offerClass0_else (by rw [hs]; decide) (by rw [hs]; rfl)) ?_
    rw [State.offerClass1_joining hs]
    exact if_neg (unready h)
  · have hq : s.ctl.state.requesting = true := (StationState.requesting_cases _).2 hs
    exact State.chooseOffer_of_class0 own (by rw [State.offerClass0_requesting hq, if_pos ⟨pending, count⟩]; rfl)
  · have hq : s.ctl.state.requesting = true := (StationState.requesting_cases _).2 hs
    have other : s.ctl.state ≠ .inStep ∧ s.ctl.state ≠ .leaving ∧ s.ctl.state ≠ .joining := by rcases hs with hs | hs <;> simp [hs]
    obtain ⟨hi, hl, hj⟩ := other
    refine State.chooseOffer_no_entry hi hl ?_ (State.offerClass1_else hj hl hi)
    rw [State.offerClass0_requesting hq]
    exact if_neg (unready h)
  · exact State.chooseOffer_of_class0 own (State.offerClass0_head hs ht hp hi)
  · exact State.chooseOffer_of_class0 own (State.offerClass0_entries hs ht hp)
  · exact State.chooseOffer_of_class0 own (State.offerClass0_tail hs ht hp)

end Sys2Proof.Machine
end

section
/-! A turn of the part with no command waiting (log entry 2). -/

namespace Sys2Proof.Machine

theorem Timer.expires_iff (us : Nat) (t : Timer) : t.expires us = true ↔ t.dueIn us := by
  cases t <;> simp [Timer.expires, Timer.dueIn]

theorem Timer.pass_afterSlot (us : Nat) (t : Timer) : t.afterSlot us (t.pass us) := by
  cases t with
  | stopped => exact ⟨fun _ => rfl, nofun⟩
  | running r =>
    refine ⟨nofun, fun q hq => ?_⟩
    cases hq
    exact ⟨fun h => if_neg (Nat.not_le.2 h), fun h => if_pos h⟩

theorem mem_ite_singleton {α : Type} {p : Prop} [Decidable p] {a c : α} : c ∈ (if p then [a] else []) ↔ p ∧ c = a := by
  split <;> simp [*]

/-! ### Due steps -/

theorem State.mem_dueSteps (s : State) (c : Instr) : c ∈ s.dueSteps ↔
    (s.abandonDue ≠ none ∧ c = .abandon) ∨ ((s.ctl.state.rejects = true ∧ 16 ≤ s.ctl.rejectCount) ∧ c = .enterMuted) ∨
    ((s.ctl.state = .muted ∧ 64 ≤ s.ctl.cleanCount) ∧ c = .recovery) := by
  have reject : Config.rejectLimit = 16 := rfl
  have clean : Config.cleanLimit = 64 := rfl
  simp only [State.dueSteps, List.mem_append, mem_ite_singleton, or_assoc, Bool.and_eq_true, decide_eq_true_eq, beq_iff_eq, reject, clean,
    Option.isSome_iff_ne_none]

/-! ### The events of a slot -/

theorem State.nextIdle_eq (s : State) : s.nextIdle = if s.frameInProgress = true ∨ 0 < s.line.dominantLeft then 0 else s.line.idleCount + 1 := by
  unfold State.nextIdle
  by_cases busy : s.frameInProgress = true ∨ 0 < s.line.dominantLeft
  · rw [if_pos busy, s.lineIdle_eq_false_iff.2 busy]; rfl
  · rw [if_neg busy, if_pos (Bool.not_eq_false _ ▸ fun k => busy (s.lineIdle_eq_false_iff.1 k))]

theorem State.leaseExpires_iff (s : State) (x : Station) : s.leaseExpires x = true ↔ s.leaseRunning x = true ∧ s.lease.remaining[x] ≤ s.slotUs := by
  simp [State.leaseExpires]

theorem State.mem_slotEvents (s : State) (c : Instr) : c ∈ s.slotEvents ↔
    (s.ctl.joinWait.dueIn s.slotUs ∧ c = .joinWaitElapsed) ∨
    (∃ x, (s.leaseRunning x = true ∧ s.lease.remaining[x] ≤ s.slotUs) ∧ .leaseExpired x = c) ∨
    (s.lease.heartbeat.dueIn s.slotUs ∧ c = .heartbeatDue) ∨ (s.sync.retry.dueIn s.slotUs ∧ c = .retryTimerExpiry) ∨
    (∃ d, (d ∈ s.req.contexts ∧ d.state ≠ .done ∧ d.waitTimer.dueIn s.slotUs) ∧ .waitTimerExpiry d.tag = c) ∨
    (s.nextIdle = 12 ∧ c = .roundEnd) ∨ ((s.cont.hold ≠ none ∧ 40 ≤ s.nextIdle) ∧ c = .holdTimeout) ∨ (6 ≤ s.nextIdle ∧ c = .offer) := by
  have round : Config.roundGap = 12 := rfl
  have hold : Config.holdTimeout = 40 := rfl
  have start : Config.startGap = 6 := rfl
  simp only [State.slotEvents, List.mem_append, mem_ite_singleton, or_assoc, Bool.and_eq_true, decide_eq_true_eq, round, hold, start,
    Option.isSome_iff_ne_none, List.mem_map, List.mem_filter, List.mem_finRange, true_and, State.leaseExpires_iff, Timer.expires_iff, Context.isOpen,
    bne_iff_ne]

/-! ### The slot -/

theorem State.tick_of_offline {s : State} (h : s.ctl.state = .offline) : s.tick = s := by simp [State.tick, State.active, h]

theorem State.tick_of_due {s : State} (h : s.ctl.state ≠ .offline) (hd : s.dueSteps ≠ []) : s.tick = { s with pending := s.dueSteps } := by
  rw [State.tick, State.active_of_ne h]
  simp [hd]

theorem State.tick_of_slot {s : State} (h : s.ctl.state ≠ .offline) (hd : s.dueSteps = []) : s.tick = { s.passSlot with pending := s.slotEvents } := by
  rw [State.tick, State.active_of_ne h]
  simp [hd]

theorem step_of_empty {s : State} (h : s.pending = []) : step s = .next s.tick := by
  unfold step
  rw [h]

theorem State.passSlot_line (s : State) : s.passSlot.line =
    { s.line with idleCount := s.nextIdle, rx := if s.line.rx.isHeld = true ∧ 6 ≤ s.nextIdle then .empty else s.line.rx,
                  dominantLeft := if s.frameInProgress then s.line.dominantLeft else s.line.dominantLeft - 1 } := by
  have start : Config.startGap = 6 := rfl
  simp only [State.passSlot, LineUnit.idleAt, start, Bool.and_eq_true, decide_eq_true_eq]

theorem State.passSlot_remaining (s : State) (x : Station) : s.passSlot.lease.remaining[x] =
    if s.leaseRunning x = true ∧ s.slotUs < s.lease.remaining[x] then s.lease.remaining[x] - s.slotUs else s.lease.remaining[x] := by
  refine (Vector.getElem_ofFn _).trans ?_
  have expires : (s.leaseRunning x && !s.leaseExpires x) = true ↔ s.leaseRunning x = true ∧ s.slotUs < s.lease.remaining[x] := by
    unfold State.leaseExpires
    cases s.leaseRunning x <;> simp
  by_cases h : s.leaseRunning x = true ∧ s.slotUs < s.lease.remaining[x]
  · rw [if_pos h]; exact if_pos (expires.2 h)
  · rw [if_neg h]; exact if_neg fun k => h (expires.1 k)

/-- A context after one slot. -/
def Context.afterSlot (us : Nat) (c : Context) : Context := if c.isOpen then { c with waitTimer := c.waitTimer.pass us } else c

theorem State.passSlot_contexts (s : State) : s.passSlot.req.contexts = s.req.contexts.map (Context.afterSlot s.slotUs) := rfl

theorem Context.afterSlot_law (us : Nat) (c : Context) : c.afterSlot us = { c with waitTimer := (c.afterSlot us).waitTimer } ∧
    (c.state = .done → c.afterSlot us = c) ∧ (c.state ≠ .done → c.waitTimer.afterSlot us (c.afterSlot us).waitTimer) := by
  unfold Context.afterSlot Context.isOpen
  by_cases h : c.state = .done
  · rw [if_neg (by simp [h])]
    exact ⟨rfl, fun _ => rfl, fun k => absurd h k⟩
  · have pass := c.waitTimer.pass_afterSlot us
    simpa [h] using pass

/-- Settles O2. -/
theorem emptyQueueStepIsOneTurnOfThePart : Obligations.EmptyQueueStepIsOneTurnOfThePart := by
  unfold Obligations.EmptyQueueStepIsOneTurnOfThePart
  intro s hp
  rw [step_of_empty hp]
  refine ⟨fun h => by rw [State.tick_of_offline h], fun h hd => by rw [State.tick_of_due h hd], ⟨?_, ?_, ?_, fun c hc => ?_⟩, fun h hd => ?_⟩
  · simp [State.mem_dueSteps]
  · simp [State.mem_dueSteps]
  · simp [State.mem_dueSteps]
  · rcases (s.mem_dueSteps c).1 hc with ⟨-, h⟩ | ⟨-, h⟩ | ⟨-, h⟩ <;> simp [h]
  · rw [State.tick_of_slot h hd]
    dsimp only
    rw [← State.nextIdle_eq]
    refine ⟨_, rfl, s.passSlot_line, Timer.pass_afterSlot .., Timer.pass_afterSlot .., Timer.pass_afterSlot .., s.passSlot_remaining,
      ?_, fun k c d hc hd => ?_, rfl, ?_, fun x => ?_, ?_, ?_, fun tag => ?_, ?_, ?_, ?_, fun c hc => ?_⟩
    · rw [State.passSlot_contexts, List.length_map]
    · rw [State.passSlot_contexts, List.getElem?_map, hc] at hd
      cases hd
      exact c.afterSlot_law s.slotUs
    · simp [State.mem_slotEvents]
    · simp [State.mem_slotEvents]
    · simp [State.mem_slotEvents]
    · simp [State.mem_slotEvents]
    · simp only [State.mem_slotEvents, reduceCtorEq, and_false, exists_false, false_or, or_false, Instr.waitTimerExpiry.injEq]
      exact exists_congr fun c => by tauto
    · simp [State.mem_slotEvents]
    · simp [State.mem_slotEvents]
    · simp [State.mem_slotEvents]
    · rcases (s.mem_slotEvents c).1 hc with ⟨-, h⟩ | ⟨x, -, h⟩ | ⟨-, h⟩ | ⟨-, h⟩ | ⟨d, -, h⟩ | ⟨-, h⟩ | ⟨-, h⟩ | ⟨-, h⟩ <;> simp [← h]

end Sys2Proof.Machine
end
